-- ==== Sys2Proof/Word.lean ====
section
/-!
DEFINITION. The bit-vector types of the block's values (spec/00_scope.md R10: every value is unsigned, bit 0 is the
least significant).
-/

namespace Sys2Proof

/-- One byte: a received byte, a wire byte, a buffer location, an 8-bit sensor field (R10, R60). -/
abbrev Byte := BitVec 8

/-- A 32-bit host value: the result word `res` and the argument field `arg` (R80, R81). -/
abbrev Word := BitVec 32

/-- A 48-bit host operation word (R80). -/
abbrev HostWord := BitVec 48

/-- A tick value, held in 32 bits whatever TICK_W is: its TICK_W low bits carry the value and the bits above are 0 in
every state the block can reach (R8, R9, R24). -/
abbrev Tick := BitVec 32

end Sys2Proof
end

