-- ==== Sys2Proof/Config.lean ====
section
/-!
DEFINITION. What an implementation fixes (spec/00_scope.md R8, R9), the constants the source fixes, and the one free
value of the model. A machine carries its `Config` in its state (`State.cfg`) and no event changes it.
-/

namespace Sys2Proof

/-- TIMER_VARIANT (R8, 92_eei_decisions.md D2): whether TINIT starts timing. -/
inductive TimerVariant where
  /-- TINIT starts timing at its own tick. -/
  | armOnInit
  /-- TINIT and TWRITE leave the timer idle; the first TREAD arms it. -/
  | armOnFirstRead
deriving DecidableEq, Repr

/-- DECODE_LEN_CHECK (R8, R185, D20): whether a decoder compares LEN with the extent of the fields it reads. -/
inductive LenCheck where
  /-- NONE: a decoder reads its fixed indices whatever LEN is. -/
  | unchecked
  /-- AT_LEAST: a LEN below the extent of the fields fails the decode. -/
  | atLeast
deriving DecidableEq, Repr

/-- The implementation parameters of R8. FRAME_MAX, FRAME_OVERHEAD and the header and terminator bytes are constants
below: R9 admits no other value of them. -/
structure Config where
  /-- TICK_W: width in bits of a tick value. -/
  tickW : Nat
  /-- N_TIMERS: number of host timers. -/
  nTimers : Nat
  /-- DEFAULT_DURATION: substituted for a rejected duration. -/
  defaultDuration : Tick
  /-- DUR_CHECK_SIGNED: whether durations with bit TICK_W-1 set are rejected too. -/
  durCheckSigned : Bool
  timerVariant : TimerVariant
  /-- WRITE_IDLE_ARMS: whether TWRITE on an idle timer starts timing. -/
  writeIdleArms : Bool
  /-- DEBOUNCE_MS: the debounce interval in ticks. -/
  debounceMs : Tick
  /-- HAS_RELEASE_EVENT: whether the `released` latch and DBREL exist. -/
  hasReleaseEvent : Bool
  decodeLenCheck : LenCheck
  /-- ENUM_RESET: reset value of the raw `port` and `calibration` bytes. -/
  enumReset : Byte
deriving DecidableEq, Repr

namespace Config

/-- The values the spec uses ("value here", R8). -/
def spec : Config where
  tickW := 32
  nTimers := 2
  defaultDuration := 100
  durCheckSigned := false
  timerVariant := .armOnInit
  writeIdleArms := false
  debounceMs := 40
  hasReleaseEvent := true
  decodeLenCheck := .unchecked
  enumReset := 0xFF

/-- The constraints of R9 on the parameters. A machine with other values is outside the spec. -/
abbrev Ok (c : Config) : Prop :=
  8 ≤ c.tickW ∧ c.tickW ≤ 32 ∧ 1 ≤ c.nTimers ∧ c.nTimers ≤ 255 ∧
  0 < c.defaultDuration.toNat ∧ c.defaultDuration.toNat < 2 ^ c.tickW ∧
  0 < c.debounceMs.toNat ∧ c.debounceMs.toNat < 2 ^ c.tickW

/-- FREE VALUE (R200, D27; notes/assumptions/3.md): how many bytes of the five-byte frame reached the wire in the `n`-th
failed send. It has no body: nothing constrains it but that a prefix of the frame has 0 to 5 bytes. -/
opaque sentBeforeFailure : Nat → Fin 6

end Config

/-- FRAME_MAX (R8, R60): frame buffer capacity and largest frame, in bytes. -/
abbrev frameMax : Nat := 32

/-- FRAME_OVERHEAD (R8, R89): bytes of a frame that are not payload. -/
abbrev frameOverhead : Nat := 5

/-- HDR1, the first header byte (R8, R17). -/
abbrev hdr1 : Byte := 0x55

/-- HDR2, the second header byte (R8, R17). -/
abbrev hdr2 : Byte := 0xAA

/-- TERM, the terminator byte (R8, R17). -/
abbrev term : Byte := 0xFA

/-- CMD of the Measure command and of its response (R90). -/
abbrev cmdMeasureCode : Byte := 0x81

/-- CMD of the Reset command and of its response (R90). -/
abbrev cmdResetCode : Byte := 0x84

/-- CMD of the Get-factory-defaults command and of its response (R90). -/
abbrev cmdFactoryDefaultsCode : Byte := 0x85

/-- CMD of the Get-product-info command and of its response (R90). -/
abbrev cmdProductInfoCode : Byte := 0x86

end Sys2Proof
end

