-- ==== Sys2Proof/Syntax.lean ====
section
/-!
DEFINITION. The instructions: one constructor for each row of spec/opcode_table.json. Three kinds of row share the
table: the host operations of R84 (with the row ILLEGAL of R85), the receive event RX of R87, and the wire frames of
R91 and R92 (the command frames the block transmits and the response frames PARSE decodes).
-/

namespace Sys2Proof

/-- An instruction: a row of spec/opcode_table.json with its operands. Fields that R82 calls ignored are no operands. -/
inductive Instr where
  /-- TINIT t<sel>, arg: timer init (R115). -/
  | tinit (sel : Byte) (arg : Word)
  /-- TREAD t<sel>: timer read (R117). -/
  | tread (sel : Byte)
  /-- TWRITE t<sel>, arg: timer write (R119). -/
  | twrite (sel : Byte) (arg : Word)
  /-- DBUPD: debounce update (R131). -/
  | dbupd
  /-- DBPUSH: read-once `pushed` (R137). -/
  | dbpush
  /-- DBHELD: level `pressing` (R139). -/
  | dbheld
  /-- DBREL: read-once `released` (R141). -/
  | dbrel
  /-- RXARM: arm the first single-byte receive (R156). -/
  | rxarm
  /-- FPOLL: read-once frame-present poll (R158). -/
  | fpoll
  /-- PARSE: parse and decode the buffered frame (R171). -/
  | parse
  /-- SMEAS: send the Measure command (R201). -/
  | smeas
  /-- SINFO: send the Get-product-info command (R202). -/
  | sinfo
  /-- SDEF: send the Get-factory-defaults command (R203). -/
  | sdef
  /-- SRST: send the Reset command (R204). -/
  | srst
  /-- GDIST: read distance and its freshness (R210). -/
  | gdist
  /-- GERR: read errorCode (R211). -/
  | gerr
  /-- GPORT: read port, validated (R215). -/
  | gport
  /-- GFW: read firmware (R212). -/
  | gfw
  /-- GCAL: read calibration, validated (R217). -/
  | gcal
  /-- GPTYPE: read productType (R213). -/
  | gptype
  /-- GOFS sel: read one factory offset (R214). -/
  | gofs (sel : Byte)
  /-- GXTALK: read crosstalk (R216). -/
  | gxtalk
  /-- GRDY: read-once responseReady (R218). -/
  | grdy
  /-- ILLEGAL: a host word whose operation code is unassigned (R85). -/
  | illegal (op : Byte)
  /-- RX: the receive event, a byte and the platform's answer to the re-arm (R87, R150). -/
  | rx (b : Byte) (rearmOk : Bool)
  /-- CMD_MEASURE: the command frame 55 AA 81 00 FA (R91, R201). -/
  | cmdMeasure
  /-- CMD_GET_PRODUCT_INFO: the command frame 55 AA 86 00 FA (R91, R202). -/
  | cmdGetProductInfo
  /-- CMD_GET_FACTORY_DEFAULTS: the command frame 55 AA 85 00 FA (R91, R203). -/
  | cmdGetFactoryDefaults
  /-- CMD_RESET: the command frame 55 AA 84 00 FA (R91, R204). -/
  | cmdReset
  /-- RSP_MEASURE: a response frame with header 55 AA 81 LEN (R92, R180). -/
  | rspMeasure (len : Byte)
  /-- RSP_RESET: a response frame with header 55 AA 84 LEN (R92, R181). -/
  | rspReset (len : Byte)
  /-- RSP_GET_FACTORY_DEFAULTS: a response frame with header 55 AA 85 LEN (R92, R182). -/
  | rspGetFactoryDefaults (len : Byte)
  /-- RSP_GET_PRODUCT_INFO: a response frame with header 55 AA 86 LEN (R92, R183). -/
  | rspGetProductInfo (len : Byte)
  /-- RSP_UNSUPPORTED: a response frame whose CMD has no decoder (R92, R184). -/
  | rspUnsupported (cmd len : Byte)
deriving DecidableEq, Repr

namespace Instr

/-- The row's mnemonic in spec/opcode_table.json. -/
def mnemonic : Instr → String
  | .tinit _ _ => "TINIT"
  | .tread _ => "TREAD"
  | .twrite _ _ => "TWRITE"
  | .dbupd => "DBUPD"
  | .dbpush => "DBPUSH"
  | .dbheld => "DBHELD"
  | .dbrel => "DBREL"
  | .rxarm => "RXARM"
  | .fpoll => "FPOLL"
  | .parse => "PARSE"
  | .smeas => "SMEAS"
  | .sinfo => "SINFO"
  | .sdef => "SDEF"
  | .srst => "SRST"
  | .gdist => "GDIST"
  | .gerr => "GERR"
  | .gport => "GPORT"
  | .gfw => "GFW"
  | .gcal => "GCAL"
  | .gptype => "GPTYPE"
  | .gofs _ => "GOFS"
  | .gxtalk => "GXTALK"
  | .grdy => "GRDY"
  | .illegal _ => "ILLEGAL"
  | .rx _ _ => "RX"
  | .cmdMeasure => "CMD_MEASURE"
  | .cmdGetProductInfo => "CMD_GET_PRODUCT_INFO"
  | .cmdGetFactoryDefaults => "CMD_GET_FACTORY_DEFAULTS"
  | .cmdReset => "CMD_RESET"
  | .rspMeasure _ => "RSP_MEASURE"
  | .rspReset _ => "RSP_RESET"
  | .rspGetFactoryDefaults _ => "RSP_GET_FACTORY_DEFAULTS"
  | .rspGetProductInfo _ => "RSP_GET_PRODUCT_INFO"
  | .rspUnsupported _ _ => "RSP_UNSUPPORTED"

/-- The line of assembly of a host operation (R94, R95). The other rows are written as events, not as assembly. -/
def assembly (i : Instr) : Option String :=
  match i with
  | .tinit k d | .twrite k d => some (i.mnemonic ++ " t" ++ toString k.toNat ++ ", " ++ toString d.toNat)
  | .tread k => some (i.mnemonic ++ " t" ++ toString k.toNat)
  | .gofs j => if j.toNat < 4 then some (i.mnemonic ++ " " ++ toString j.toNat) else none
  | .dbupd | .dbpush | .dbheld | .dbrel | .rxarm | .fpoll | .parse | .smeas | .sinfo | .sdef | .srst | .gdist | .gerr
  | .gport | .gfw | .gcal | .gptype | .gxtalk | .grdy => some i.mnemonic
  | .illegal _ | .rx _ _ | .cmdMeasure | .cmdGetProductInfo | .cmdGetFactoryDefaults | .cmdReset | .rspMeasure _
  | .rspReset _ | .rspGetFactoryDefaults _ | .rspGetProductInfo _ | .rspUnsupported _ _ => none

end Instr

end Sys2Proof
end

