-- ==== Sys2Proof/WellFormed.lean ====
section
/-!
DEFINITION. Which instructions an encoding can stand for: an ILLEGAL row holds an unassigned code (R85), a response row
holds a LEN of at most 27 (R89, R93), and RSP_UNSUPPORTED a CMD without a decoder (R184). Every selector and argument
of a host operation is admitted: one that is out of range is an instruction that halts (R83).
-/

namespace Sys2Proof

/-- The assigned host operation codes (R84). -/
def assignedOps : List Byte :=
  [0x01, 0x02, 0x03, 0x10, 0x11, 0x12, 0x13, 0x20, 0x21, 0x22, 0x30, 0x31, 0x32, 0x33,
   0x40, 0x41, 0x42, 0x43, 0x44, 0x45, 0x46, 0x47, 0x48]

/-- The CMD values that have a response decoder (R92, R177). -/
def decodedCmds : List Byte := [cmdMeasureCode, cmdResetCode, cmdFactoryDefaultsCode, cmdProductInfoCode]

/-- A LEN byte that passes the length check: `LEN + 5 <= 32` (R89, R174). -/
abbrev LenOk (len : Byte) : Prop := len.toNat + frameOverhead ≤ frameMax

/-- The instructions an encoding stands for. -/
abbrev Instr.WellFormed (i : Instr) : Prop :=
  match i with
  | .illegal op => op ∉ assignedOps
  | .rspMeasure len | .rspReset len | .rspGetFactoryDefaults len | .rspGetProductInfo len => LenOk len
  | .rspUnsupported cmd len => cmd ∉ decodedCmds ∧ LenOk len
  | .tinit _ _ | .tread _ | .twrite _ _ | .dbupd | .dbpush | .dbheld | .dbrel | .rxarm | .fpoll | .parse | .smeas
  | .sinfo | .sdef | .srst | .gdist | .gerr | .gport | .gfw | .gcal | .gptype | .gofs _ | .gxtalk | .grdy | .rx _ _
  | .cmdMeasure | .cmdGetProductInfo | .cmdGetFactoryDefaults | .cmdReset => True

end Sys2Proof
end

