-- ==== Sys2Proof/Decode.lean ====
section
/-!
DEFINITION. Decoding and encoding (spec/30_encoding.md). Four encodings meet at the block: the 48-bit host word (R80),
the 9-bit receive event (R87), the command frame (R91) and the response frame (R92). Decoding is total on any bits and
rejects by name; a host word never fails to decode, because R85 makes every unassigned code the row ILLEGAL.
-/

namespace Sys2Proof

/-- An encoded instruction. -/
inductive Code where
  /-- A host operation word (R80). -/
  | host (w : HostWord)
  /-- A receive event: `b` in bits 7:0, `rearmOk` in bit 8 (R87; notes/assumptions/5.md). -/
  | rx (v : BitVec 9)
  /-- A command frame, its bytes in wire order (R91). -/
  | command (bytes : List Byte)
  /-- A response frame, its bytes in wire order (R92). Only its first four bytes are the instruction; the payload and the
  terminator are the operands PARSE reads from the buffer. -/
  | response (bytes : List Byte)
deriving DecidableEq, Repr

/-- Why a byte sequence is no instruction. -/
inductive DecodeError where
  /-- Fewer bytes than the form needs, or more than a command frame has. -/
  | wrongSize
  /-- The byte at index 0 is not 0x55 (R172). -/
  | badHeader1
  /-- The byte at index 1 is not 0xAA (R173). -/
  | badHeader2
  /-- LEN + 5 exceeds 32 (R174), or the LEN of a command frame is not 0 (R91). -/
  | badLength
  /-- The last byte of a command frame is not 0xFA (R91). -/
  | badTerminator
  /-- A command frame the block never sends (R91, R205). -/
  | neverSent (cmd : Byte)
deriving DecidableEq, Repr

/-- The field `op` of a host word (R80). -/
def opField (w : HostWord) : Byte := w.extractLsb' 0 8

/-- The field `sel` of a host word (R80). -/
def selField (w : HostWord) : Byte := w.extractLsb' 8 8

/-- The field `arg` of a host word (R80). -/
def argField (w : HostWord) : Word := w.extractLsb' 16 32

/-- The operation a host word asks for, selected by `op` alone (R84, R85). -/
def decodeHost (w : HostWord) : Instr :=
  match (opField w).toNat with
  | 0x01 => .tinit (selField w) (argField w)
  | 0x02 => .tread (selField w)
  | 0x03 => .twrite (selField w) (argField w)
  | 0x10 => .dbupd
  | 0x11 => .dbpush
  | 0x12 => .dbheld
  | 0x13 => .dbrel
  | 0x20 => .rxarm
  | 0x21 => .fpoll
  | 0x22 => .parse
  | 0x30 => .smeas
  | 0x31 => .sinfo
  | 0x32 => .sdef
  | 0x33 => .srst
  | 0x40 => .gdist
  | 0x41 => .gerr
  | 0x42 => .gport
  | 0x43 => .gfw
  | 0x44 => .gcal
  | 0x45 => .gptype
  | 0x46 => .gofs (selField w)
  | 0x47 => .gxtalk
  | 0x48 => .grdy
  | _ => .illegal (opField w)

/-- The receive event of nine bits (R87). -/
def decodeRx (v : BitVec 9) : Instr := .rx (v.extractLsb' 0 8) (v.getLsbD 8)

/-- The command frame of five bytes (R91). -/
def decodeCommand (bytes : List Byte) : Except DecodeError Instr :=
  match bytes with
  | [h1, h2, cmd, len, t] =>
    if h1 ≠ hdr1 then .error .badHeader1
    else if h2 ≠ hdr2 then .error .badHeader2
    else if len ≠ 0 then .error .badLength
    else if t ≠ term then .error .badTerminator
    else if cmd = cmdMeasureCode then .ok .cmdMeasure
    else if cmd = cmdProductInfoCode then .ok .cmdGetProductInfo
    else if cmd = cmdFactoryDefaultsCode then .ok .cmdGetFactoryDefaults
    else if cmd = cmdResetCode then .ok .cmdReset
    else .error (.neverSent cmd)
  | _ => .error .wrongSize

/-- The response row of a CMD byte (R92, R177, R184). -/
def responseOf (cmd len : Byte) : Instr :=
  if cmd = cmdMeasureCode then .rspMeasure len
  else if cmd = cmdResetCode then .rspReset len
  else if cmd = cmdFactoryDefaultsCode then .rspGetFactoryDefaults len
  else if cmd = cmdProductInfoCode then .rspGetProductInfo len
  else .rspUnsupported cmd len

/-- The response frame whose first four bytes are given (R92, R172-R174). -/
def decodeResponse (bytes : List Byte) : Except DecodeError Instr :=
  match bytes with
  | h1 :: h2 :: cmd :: len :: _ =>
    if h1 ≠ hdr1 then .error .badHeader1
    else if h2 ≠ hdr2 then .error .badHeader2
    else if LenOk len then .ok (responseOf cmd len)
    else .error .badLength
  | _ => .error .wrongSize

/-- The instruction an encoding stands for, or the reason it stands for none. -/
def decode (c : Code) : Except DecodeError Instr :=
  match c with
  | .host w => .ok (decodeHost w)
  | .rx v => .ok (decodeRx v)
  | .command bytes => decodeCommand bytes
  | .response bytes => decodeResponse bytes

/-- The word of a host operation with unused fields 0 (R86, R94). -/
def hostWord (op sel : Byte) (arg : Word) : HostWord := arg ++ (sel ++ op)

/-- The bytes of the command frame with command byte `cmd` (R91). -/
def commandFrame (cmd : Byte) : List Byte := [hdr1, hdr2, cmd, 0x00, term]

/-- The first four bytes of a response frame (R88, R92). -/
def responseHeader (cmd len : Byte) : List Byte := [hdr1, hdr2, cmd, len]

/-- The encoding of an instruction. -/
def encode (i : Instr) : Code :=
  match i with
  | .tinit sel arg => .host (hostWord 0x01 sel arg)
  | .tread sel => .host (hostWord 0x02 sel 0)
  | .twrite sel arg => .host (hostWord 0x03 sel arg)
  | .dbupd => .host (hostWord 0x10 0 0)
  | .dbpush => .host (hostWord 0x11 0 0)
  | .dbheld => .host (hostWord 0x12 0 0)
  | .dbrel => .host (hostWord 0x13 0 0)
  | .rxarm => .host (hostWord 0x20 0 0)
  | .fpoll => .host (hostWord 0x21 0 0)
  | .parse => .host (hostWord 0x22 0 0)
  | .smeas => .host (hostWord 0x30 0 0)
  | .sinfo => .host (hostWord 0x31 0 0)
  | .sdef => .host (hostWord 0x32 0 0)
  | .srst => .host (hostWord 0x33 0 0)
  | .gdist => .host (hostWord 0x40 0 0)
  | .gerr => .host (hostWord 0x41 0 0)
  | .gport => .host (hostWord 0x42 0 0)
  | .gfw => .host (hostWord 0x43 0 0)
  | .gcal => .host (hostWord 0x44 0 0)
  | .gptype => .host (hostWord 0x45 0 0)
  | .gofs sel => .host (hostWord 0x46 sel 0)
  | .gxtalk => .host (hostWord 0x47 0 0)
  | .grdy => .host (hostWord 0x48 0 0)
  | .illegal op => .host (hostWord op 0 0)
  | .rx b rearmOk => .rx (BitVec.ofBool rearmOk ++ b)
  | .cmdMeasure => .command (commandFrame cmdMeasureCode)
  | .cmdGetProductInfo => .command (commandFrame cmdProductInfoCode)
  | .cmdGetFactoryDefaults => .command (commandFrame cmdFactoryDefaultsCode)
  | .cmdReset => .command (commandFrame cmdResetCode)
  | .rspMeasure len => .response (responseHeader cmdMeasureCode len)
  | .rspReset len => .response (responseHeader cmdResetCode len)
  | .rspGetFactoryDefaults len => .response (responseHeader cmdFactoryDefaultsCode len)
  | .rspGetProductInfo len => .response (responseHeader cmdProductInfoCode len)
  | .rspUnsupported cmd len => .response (responseHeader cmd len)

/-- The bytes of a number written with its first byte most significant, as the table writes a wire frame's match. -/
def bigEndianBytes (n : Nat) (w : Nat) : List Byte :=
  match n with
  | 0 => []
  | k + 1 => bigEndianBytes k (w / 256) ++ [BitVec.ofNat 8 w]

/-- The encoding that the bits `w` of a table row of `nbits` bits stand for (spec/opcode_table.json): 48 bits (or the 8
fixed ones) are a host word and up to 16 the receive event, bit 0 least significant; 40 bits are a command frame and
any other size a response frame given by its first four bytes, both written with the first byte most significant, as
the table's match of those rows is (notes/assumptions/6.md). -/
def tableCode (nbits w : Nat) : Code :=
  if nbits = 48 ∨ nbits ≤ 8 then .host (BitVec.ofNat 48 w)
  else if nbits ≤ 16 then .rx (BitVec.ofNat 9 w)
  else if nbits = 40 then .command (bigEndianBytes 5 w)
  else .response (bigEndianBytes 4 w)

/-- The instruction the decoder reads from a table row's bits. -/
def decodeTableWord (nbits w : Nat) : Option Instr :=
  match decode (tableCode nbits w) with
  | .ok i => some i
  | .error _ => none

end Sys2Proof
end

