-- ==== Sys2Proof/Machine/State.lean ====
section
/-!
DEFINITION. The block's state as plain data (spec/10_state.md R22), what an event carries (spec/00_scope.md R6, R7), the
reasons a step can stop, and the state after reset (spec/70_reset_and_hazards.md R260). INVENTORY.md lists every field
with its rule and its reset value; the fields `cfg`, `env`, `pending`, `result`, `txOut` and `draws` are the model's own.
-/

namespace Sys2Proof.Machine

/-- A timer instance (R24). -/
structure Timer where
  /-- The tick at which the current timing began. -/
  start : Tick
  /-- The configured number of ticks. -/
  duration : Tick
  running : Bool
deriving DecidableEq, Repr

/-- The debounce FSM's state (R26). -/
inductive DbState where
  | released
  | confirmingPress
  | pressed
  | confirmingRelease
deriving DecidableEq, Repr

/-- The debounce FSM with its private timer `DT` and its flags (R22 0x30-0x36, R26-R28). -/
structure Debounce where
  timer : Timer
  dbState : DbState
  pushed : Bool
  pressing : Bool
  released : Bool
deriving DecidableEq, Repr

/-- The frame buffer `buf`: the bytes that differ from the reset contents 0x00, by rising index (R22, R60, R68). -/
abbrev Memory := List Host.Cell

/-- The canonical form from index `lo` on: indices rise strictly, lie inside the buffer, and no listed byte is the 0x00
that an unlisted one reads as. -/
def Memory.wfFrom (lo : Nat) : Memory → Bool
  | [] => true
  | (a, b) :: m => decide (lo ≤ a) && decide (a < frameMax) && b != 0#8 && Memory.wfFrom (a + 1) m

/-- The buffer is in canonical form. -/
def Memory.wf (m : Memory) : Bool := Memory.wfFrom 0 m

/-- The frame receiver (R22 0x40-0x43, R29-R31). -/
structure Receiver where
  buf : Memory
  /-- The write index, six bits wide (R29). -/
  idx : BitVec 6
  framePresent : Bool
  rxArmed : Bool
deriving DecidableEq, Repr

/-- The four factory offset bytes `offset[0..3]` (R22 0x56). -/
structure Offsets where
  o0 : Byte
  o1 : Byte
  o2 : Byte
  o3 : Byte
deriving DecidableEq, Repr

/-- The sensor state (R22 0x50-0x5C, R32-R36). `port` and `calibration` hold raw codes (R33, R34). -/
structure Sensor where
  distance : BitVec 16
  errorCode : Byte
  port : Byte
  firmware : Byte
  calibration : Byte
  productType : Byte
  offset : Offsets
  crosstalk : BitVec 16
  responseReady : Bool
  distanceFresh : Bool
deriving DecidableEq, Repr

/-- The causes `haltCause` can hold (R231). The codes 0x08-0xFF are never written, so no constructor stands for them. -/
inductive HaltCause where
  | noCause
  | txFail
  | rxRearmFail
  | badTimer
  | badPort
  | badCal
  | illegalOp
  | badOperand
deriving DecidableEq, Repr

/-- The halt state `halted`, `haltCause` (R22 0x60-0x61, R37). -/
structure Halt where
  halted : Bool
  cause : HaltCause
deriving DecidableEq, Repr

/-- The environment inputs of a host event (R6, R7). -/
structure Env where
  /-- The external tick counter; only its low TICK_W bits are the tick. -/
  now : Tick
  /-- The raw button level: false = low = asserted, true = high = deasserted (R130). -/
  pin : Bool
  /-- The transmit primitive succeeded. -/
  txOk : Bool
  /-- The receive-arm primitive succeeded. -/
  armOk : Bool
deriving DecidableEq, Repr

/-- An event the environment applies to the block (R6). -/
inductive Event where
  /-- One host operation word with the inputs sampled at that event. -/
  | host (w : HostWord) (env : Env)
  /-- One received byte, with the platform's answer to the re-arm. -/
  | rx (b : Byte) (rearmOk : Bool)
  /-- The reset of R260. -/
  | reset
deriving DecidableEq, Repr

/-- Everything the block holds, with the ports through which the environment reaches it. -/
structure State where
  /-- The implementation parameters of this machine (R8). No event changes them. -/
  cfg : Config
  /-- The host timers `T[0] .. T[N_TIMERS-1]` (R22 0x00-0x2F). -/
  timers : List Timer
  debounce : Debounce
  receiver : Receiver
  sensor : Sensor
  halt : Halt
  /-- The environment inputs sampled at the current host event (R7). -/
  env : Env
  /-- The events still to be applied, in the environment's order (R6). -/
  pending : List Event
  /-- The result word `res` of the current event, where it returned one (R81, R232). -/
  result : Option Word
  /-- The transmit stream: every byte sent so far, oldest first (R14, R22). -/
  txOut : List Byte
  /-- How many free values have been drawn (notes/assumptions/3.md). -/
  draws : Nat
deriving DecidableEq, Repr

/-- Why a step stops. -/
inductive Fault where
  /-- Raised by every host operation, and by the end of the pending events, while `halted = 1` (R233): the host is stuck,
  and a halted state is never a normal end of a run. Safe: the model stops where the block makes no progress. -/
  | halted (cause : HaltCause)
  /-- Raised by a receive event whose write index is outside the buffer, 33 to 63, which never occurs in a state reached
  from reset (R29, R64). Safe: the model stops instead of inventing a location. -/
  | bufferIndex (index : Nat)
deriving DecidableEq, Repr

/-- Why a step gives no meaning. -/
inductive Refusal where
  /-- The instruction has no meaning in this model yet. No arm of `exec` answers so. Safe: nothing is claimed. -/
  | notModelled (mnemonic : String)
deriving DecidableEq, Repr

/-- The outcome of an event. -/
abbrev Result := Host.Outcome State Fault Refusal

/-- The state after reset of a machine with the parameters `c` (R22 column "reset", R260). -/
def State.resetWith (c : Config) : State where
  cfg := c
  timers := List.replicate c.nTimers { start := 0, duration := c.defaultDuration, running := false }
  debounce :=
    { timer := { start := 0, duration := c.debounceMs, running := false }
      dbState := .released, pushed := false, pressing := false, released := false }
  receiver := { buf := [], idx := 0, framePresent := false, rxArmed := false }
  sensor :=
    { distance := 0, errorCode := 0, port := c.enumReset, firmware := 0, calibration := c.enumReset, productType := 0
      offset := { o0 := 0, o1 := 0, o2 := 0, o3 := 0 }, crosstalk := 0, responseReady := false, distanceFresh := false }
  halt := { halted := false, cause := .noCause }
  env := { now := 0, pin := true, txOk := true, armOk := true }
  pending := []
  result := none
  txOut := []
  draws := 0

/-- The machine right after reset, with the spec's parameter values (R8, R260). -/
def State.reset : State := State.resetWith Config.spec

end Sys2Proof.Machine
end

