-- ==== Sys2Proof/Machine/Operands.lean ====
section
/-!
DEFINITION. Operands and inputs: ticks of TICK_W bits (R7, R10-R12), durations (R83, R111), the timer and offset
selectors (R83), byte order (R62), and the codes of the enumerated fields and of the halt causes (R26, R33, R34, R231).
-/

namespace Sys2Proof.Machine

/-- `x[w-1:0]`, zero-extended (R10). -/
def lowBits (w : Nat) (x : Tick) : Tick := (x.setWidth w).setWidth 32

/-- Bit `w-1` of the sign-extended low `w` bits: the test `sext_32(d)[31] = 1` of R111. -/
def signBit (w : Nat) (x : Tick) : Bool := ((x.setWidth w).signExtend 32).getLsbD 31

/-- The tick input `now` of the current event (R7, R110). -/
def State.now (s : State) : Tick := lowBits s.cfg.tickW s.env.now

/-- The duration operand `d = arg[TICK_W-1:0]` (R83). -/
def durationOperand (c : Config) (arg : Word) : Tick := lowBits c.tickW arg

/-- `Validate(d)`: a rejected duration becomes DEFAULT_DURATION (R111). -/
def validate (c : Config) (d : Tick) : Tick :=
  if d = 0 then c.defaultDuration
  else if c.durCheckSigned && signBit c.tickW d then c.defaultDuration
  else d

/-- `Elapsed(X, now)`: the ticks since `start`, modulo 2^TICK_W (R112). -/
def elapsed (w : Nat) (start now : Tick) : Tick := lowBits w (now - start)

/-- `BE16(hi, lo)`: the byte at the lower index is the more significant (R17, R62). -/
def be16 (hi lo : Byte) : BitVec 16 := hi ++ lo

/-- `offset[j]`, where `j` is a legal index (R83, R214). -/
def Offsets.get? (o : Offsets) (j : Byte) : Option Byte :=
  match j.toNat with
  | 0 => some o.o0
  | 1 => some o.o1
  | 2 => some o.o2
  | 3 => some o.o3
  | _ => none

/-- The legal codes of `port`: UartAndI2c, OnlyI2c, OnlyUart (R33, R215). -/
def portCodes : List Byte := [0x00, 0x01, 0x02]

/-- The legal codes of `calibration`: None, Crosstalk, Offset, Complete (R34, R217). -/
def calibrationCodes : List Byte := [0x00, 0x01, 0x02, 0x03]

/-- The two-bit encoding of `dbState` (R26). -/
def DbState.code : DbState → BitVec 2
  | .released => 0
  | .confirmingPress => 1
  | .pressed => 2
  | .confirmingRelease => 3

/-- The code of a halt cause (R231). -/
def HaltCause.code : HaltCause → Byte
  | .noCause => 0x00
  | .txFail => 0x01
  | .rxRearmFail => 0x02
  | .badTimer => 0x03
  | .badPort => 0x04
  | .badCal => 0x05
  | .illegalOp => 0x06
  | .badOperand => 0x07

end Sys2Proof.Machine
end

