-- ==== Sys2Proof/Machine/Flags.lean ====
section
/-!
DEFINITION. The one-bit state elements (spec/10_state.md R23): how a flag becomes a result (R81), the read-once flags
(R73, R27, R30, R35, R36) and the flag writes of the debounce transitions (R131).
-/

namespace Sys2Proof.Machine

/-- A one-bit result: `res[0]` holds it and `res[31:1] = 0` (R81). -/
def bitWord (b : Bool) : Word := (BitVec.ofBool b).setWidth 32

/-- Read-once `pushed` (R27, R137). -/
def Debounce.takePushed (d : Debounce) : Debounce × Bool := ({ d with pushed := false }, d.pushed)

/-- Read-once `released` (R27, R141). -/
def Debounce.takeReleased (d : Debounce) : Debounce × Bool := ({ d with released := false }, d.released)

/-- Read-once `framePresent` (R30, R158). -/
def Receiver.takeFramePresent (r : Receiver) : Receiver × Bool := ({ r with framePresent := false }, r.framePresent)

/-- Read-once `responseReady` (R35, R218). -/
def Sensor.takeResponseReady (x : Sensor) : Sensor × Bool := ({ x with responseReady := false }, x.responseReady)

/-- Read-once `distanceFresh` (R36, R210). -/
def Sensor.takeDistanceFresh (x : Sensor) : Sensor × Bool := ({ x with distanceFresh := false }, x.distanceFresh)

/-- The transition ConfirmingPress -> Pressed: `pushed <- 1`, `pressing <- 1` (R131). -/
def Debounce.confirmPress (d : Debounce) : Debounce :=
  { d with dbState := .pressed, pushed := true, pressing := true }

/-- The transition ConfirmingRelease -> Released: `pressing <- 0` and, with a release event, `released <- 1` (R131). -/
def Debounce.confirmRelease (hasReleaseEvent : Bool) (d : Debounce) : Debounce :=
  { d with dbState := .released, pressing := false, released := d.released || hasReleaseEvent }

end Sys2Proof.Machine
end

