-- ==== Sys2Proof/Machine/Ops.lean ====
section
/-!
DEFINITION. The operations the instructions share: the frame buffer (R13, R60-R68), halt entry (R232), the guard of
the halted state (R233), a host result (R14, R81), the timer primitives (R113, R114), the send primitive (R200), the
byte store of the receive event (R150), the parser's framing checks and decoders (R171-R185), and the reset event (R260).
-/

namespace Sys2Proof.Machine

/-! ### The frame buffer -/

/-- The byte at index `a`; an unlisted byte holds its reset contents 0x00 (R22). -/
def Memory.read : Memory → Nat → Byte
  | [], _ => 0#8
  | (a', b') :: m, a => if a = a' then b' else Memory.read m a

/-- The byte `b` at index `a` in front of the bytes `m` at higher indices. -/
def Memory.put (a : Nat) (b : Byte) (m : Memory) : Memory := if b = 0#8 then m else (a, b) :: m

/-- The buffer with the byte `b` at index `a`, in canonical form. -/
def Memory.write : Memory → Nat → Byte → Memory
  | [], a, b => Memory.put a b []
  | (a', b') :: m, a, b =>
    if a < a' then Memory.put a b ((a', b') :: m)
    else if a = a' then Memory.put a b m
    else (a', b') :: Memory.write m a b

/-- `MemRead(i, 1)` (R13). Every index PARSE forms lies in the buffer (R64), so the index type admits no other. -/
def Receiver.memRead (r : Receiver) (i : Fin frameMax) : Byte := r.buf.read i.val

/-- `MemWrite(i, 1, b)` (R13). -/
def Receiver.memWrite (r : Receiver) (i : Fin frameMax) (b : Byte) : Receiver :=
  { r with buf := r.buf.write i.val b }

/-! ### Results and halts -/

/-- `return v` of a host operation (R14, R81). -/
def State.answer (s : State) (v : Word) : Result := .next { s with result := some v }

/-- Halt entry (R232): `halted <- 1`, `haltCause <- cause`, `rxArmed <- 0`, and no result word. What the event wrote
before the raise stays. -/
def State.haltEntry (s : State) (cause : HaltCause) : State :=
  { s with
    halt := { halted := true, cause := cause }
    receiver := { s.receiver with rxArmed := false }
    result := none }

/-- `raise Halt(cause)` as the last effect of an event (R14, R232). -/
def State.raiseHalt (s : State) (cause : HaltCause) : Result := .next (s.haltEntry cause)

/-- A host operation's effect, which a halted block does not have: the host is stuck (R233). -/
def hostOperation (s : State) (effect : Result) : Result :=
  if s.halt.halted then .fault (.halted s.halt.cause) else effect

/-! ### Timers -/

/-- `TimerArm(X, now, d)` (R114). -/
def timerArm (now d : Tick) : Timer := { start := now, duration := d, running := true }

/-- `TimerRead(X, now)` for TICK_W = `w`: the timer after the read, and whether it expired (R113). -/
def timerRead (w : Nat) (x : Timer) (now : Tick) : Timer × Bool :=
  if x.running then
    if x.duration ≤ elapsed w x.start now then ({ x with start := now }, true) else (x, false)
  else ({ x with start := now, running := true }, false)

/-- A timer operation on `T[k]`: BAD_TIMER before any other effect where no instance has the id `k` (R83), else the
instance and the result the operation gives. -/
def State.onTimer (s : State) (k : Byte) (effect : Timer → Timer × Word) : Result :=
  match s.timers[k.toNat]? with
  | none => s.raiseHalt .badTimer
  | some x => { s with timers := s.timers.set k.toNat (effect x).1 }.answer (effect x).2

/-! ### Sending -/

/-- Append bytes to the transmit stream (R14 `emit`). -/
def State.emit (s : State) (bytes : List Byte) : State := { s with txOut := s.txOut ++ bytes }

/-- The send primitive on a whole frame (R200): all of it, or, where the transmit fails, some first bytes of it, a free
number of them, and then the halt. -/
def State.sendFrame (s : State) (frame : List Byte) : Result :=
  if s.env.txOk then (s.emit frame).answer 0
  else
    { s.emit (frame.take (Config.sentBeforeFailure s.draws).val) with draws := s.draws + 1 }.raiseHalt .txFail

/-- `SendCmd(c)` (R200). -/
def State.sendCommand (s : State) (cmd : Byte) : Result := s.sendFrame (commandFrame cmd)

/-! ### The receive event -/

/-- Store the byte at `i`, advance the index, raise `framePresent` on a terminator, and otherwise reset a full index
silently (R150-R152). -/
def Receiver.storeByte (r : Receiver) (i : Fin frameMax) (b : Byte) : Receiver :=
  if b = term then { r.memWrite i b with idx := BitVec.ofNat 6 (i.val + 1), framePresent := true }
  else if i.val + 1 = frameMax then { r.memWrite i b with idx := 0 }
  else { r.memWrite i b with idx := BitVec.ofNat 6 (i.val + 1) }

/-- Where the next byte is stored: a full buffer is reset before the store (R150). -/
def Receiver.storeIndex (r : Receiver) : Nat := if r.idx.toNat = frameMax then 0 else r.idx.toNat

/-- The receive event (R150): a byte is dropped while the block is halted or disarmed; else it is stored, and a failed
re-arm then halts. -/
def State.receiveByte (s : State) (b : Byte) (rearmOk : Bool) : Result :=
  if s.halt.halted || !s.receiver.rxArmed then .next s
  else if h : s.receiver.storeIndex < frameMax then
    if rearmOk then .next { s with receiver := s.receiver.storeByte ⟨s.receiver.storeIndex, h⟩ b }
    else { s with receiver := s.receiver.storeByte ⟨s.receiver.storeIndex, h⟩ b }.raiseHalt .rxRearmFail
  else .fault (.bufferIndex s.receiver.storeIndex)

/-! ### Parsing and decoding -/

/-- The failure outcome of PARSE (R178). -/
def State.parseFail (s : State) : Result := { s with receiver := { s.receiver with idx := 0 } }.answer 0

/-- The success outcome of PARSE with the decoded fields `x` (R179). -/
def State.parseSuccess (s : State) (x : Sensor) : Result :=
  { s with receiver := { s.receiver with idx := 0 }, sensor := { x with responseReady := true } }.answer 1

/-- Whether DECODE_LEN_CHECK lets a decoder with fields of `extent` bytes run (R185). -/
def lenCovers (c : Config) (extent : Nat) (len : Byte) : Bool :=
  match c.decodeLenCheck with
  | .unchecked => true
  | .atLeast => decide (extent ≤ len.toNat)

/-- The Measure response (R180). -/
def decodeMeasure (c : Config) (len : Byte) (r : Receiver) (x : Sensor) : Option Sensor :=
  if lenCovers c 3 len then
    some { x with distance := be16 (r.memRead 4) (r.memRead 5), errorCode := r.memRead 6, distanceFresh := true }
  else none

/-- The Reset response carries no field (R181). -/
def decodeReset (c : Config) (len : Byte) (_ : Receiver) (x : Sensor) : Option Sensor :=
  if lenCovers c 0 len then some x else none

/-- The Get-factory-defaults response (R182). -/
def decodeFactoryDefaults (c : Config) (len : Byte) (r : Receiver) (x : Sensor) : Option Sensor :=
  if lenCovers c 7 len then
    some { x with
      offset := { o0 := r.memRead 4, o1 := r.memRead 5, o2 := r.memRead 6, o3 := r.memRead 7 }
      crosstalk := be16 (r.memRead 8) (r.memRead 9)
      calibration := r.memRead 10 }
  else none

/-- The Get-product-info response (R183). -/
def decodeProductInfo (c : Config) (len : Byte) (r : Receiver) (x : Sensor) : Option Sensor :=
  if lenCovers c 3 len then
    some { x with productType := r.memRead 4, port := r.memRead 5, firmware := r.memRead 6 }
  else none

/-- `Decode(cmd, len)`: CMD selects the decoder, and any other CMD fails (R177, R184). -/
def decodeByCmd (cmd : Byte) (c : Config) (len : Byte) (r : Receiver) (x : Sensor) : Option Sensor :=
  if cmd = cmdMeasureCode then decodeMeasure c len r x
  else if cmd = cmdResetCode then decodeReset c len r x
  else if cmd = cmdFactoryDefaultsCode then decodeFactoryDefaults c len r x
  else if cmd = cmdProductInfoCode then decodeProductInfo c len r x
  else none

/-- After the length check the terminator's index lies in the buffer (R174). -/
theorem terminatorIndex_lt {len : Byte} (h : LenOk len) : 4 + len.toNat < frameMax := by
  have h' : len.toNat + 5 ≤ 32 := h
  show 4 + len.toNat < 32
  omega

/-- PARSE from the length check on (R171, R174-R179): the length, the terminator at index 4+LEN, then the decoder. -/
def State.parseBody (s : State) (len : Byte)
    (decoder : Config → Byte → Receiver → Sensor → Option Sensor) : Result :=
  if h : LenOk len then
    if s.receiver.memRead ⟨4 + len.toNat, terminatorIndex_lt h⟩ = term then
      match decoder s.cfg len s.receiver s.sensor with
      | some x => s.parseSuccess x
      | none => s.parseFail
    else s.parseFail
  else s.parseFail

/-- The whole frame FSM (R171-R173): both headers, then the body with the CMD and LEN read. -/
def State.parseFrame (s : State) : Result :=
  if s.receiver.memRead 0 ≠ hdr1 then s.parseFail
  else if s.receiver.memRead 1 ≠ hdr2 then s.parseFail
  else s.parseBody (s.receiver.memRead 3) (decodeByCmd (s.receiver.memRead 2))

/-! ### Reset -/

/-- The reset event (R260, R261): every element of R22 takes its reset value; the parameters, the transmit stream and the
environment's own data are no element of R22 and stay. -/
def State.resetEvent (s : State) : State :=
  { State.resetWith s.cfg with env := s.env, pending := s.pending, txOut := s.txOut, draws := s.draws }

end Sys2Proof.Machine
end

