-- ==== Sys2Proof/Machine/Debounce.lean ====
section
/-! DEFINITION. The debounce operations (spec/41_debounce.md). -/

namespace Sys2Proof.Machine

/-- One update of the debounce FSM at tick `now` with the pin sample `pin` (R131). -/
def Debounce.update (c : Config) (now : Tick) (pin : Bool) (d : Debounce) : Debounce :=
  match d.dbState with
  | .released =>
    if pin then d else { d with dbState := .confirmingPress, timer := timerArm now c.debounceMs }
  | .pressed =>
    if pin then { d with dbState := .confirmingRelease, timer := timerArm now c.debounceMs } else d
  | .confirmingPress =>
    if (timerRead c.tickW d.timer now).2 then
      if pin then { d with timer := (timerRead c.tickW d.timer now).1, dbState := .released }
      else { d with timer := (timerRead c.tickW d.timer now).1 }.confirmPress
    else { d with timer := (timerRead c.tickW d.timer now).1 }
  | .confirmingRelease =>
    if (timerRead c.tickW d.timer now).2 then
      if pin then { d with timer := (timerRead c.tickW d.timer now).1 }.confirmRelease c.hasReleaseEvent
      else { d with timer := (timerRead c.tickW d.timer now).1, dbState := .pressed }
    else { d with timer := (timerRead c.tickW d.timer now).1 }

/-- DBUPD (R131). -/
def execDbupd (s : State) : Result :=
  hostOperation s <| { s with debounce := s.debounce.update s.cfg s.now s.env.pin }.answer 0

/-- DBPUSH (R137). -/
def execDbpush (s : State) : Result :=
  hostOperation s <| { s with debounce := s.debounce.takePushed.1 }.answer (bitWord s.debounce.takePushed.2)

/-- DBHELD (R139). -/
def execDbheld (s : State) : Result := hostOperation s <| s.answer (bitWord s.debounce.pressing)

/-- DBREL (R141): without a release event its code is unassigned and halts with ILLEGAL_OP. -/
def execDbrel (s : State) : Result :=
  hostOperation s <|
    if s.cfg.hasReleaseEvent then
      { s with debounce := s.debounce.takeReleased.1 }.answer (bitWord s.debounce.takeReleased.2)
    else s.raiseHalt .illegalOp

end Sys2Proof.Machine
end

