-- ==== Sys2Proof/Machine/Illegal.lean ====
section
/-! DEFINITION. The row ILLEGAL: an unassigned operation code (spec/30_encoding.md R85). -/

namespace Sys2Proof.Machine

/-- ILLEGAL (R85): halts with ILLEGAL_OP and changes nothing else. -/
def execIllegal (_op : Byte) (s : State) : Result := hostOperation s <| s.raiseHalt .illegalOp

end Sys2Proof.Machine
end

