-- ==== Sys2Proof/Machine/Parser.lean ====
section
/-!
DEFINITION. PARSE and the response frames it runs (spec/43_parser.md). A response row stands in the frame buffer: its
header bytes 0 to 3 select it, and its payload and terminator are its operands. Its meaning is what PARSE does once it
has read that header (R174-R185); the block runs it only inside a PARSE event (notes/assumptions/4.md).
-/

namespace Sys2Proof.Machine

/-- PARSE (R171). -/
def execParse (s : State) : Result := hostOperation s s.parseFrame

/-- RSP_MEASURE (R180). -/
def execRspMeasure (len : Byte) (s : State) : Result := hostOperation s <| s.parseBody len decodeMeasure

/-- RSP_RESET (R181). -/
def execRspReset (len : Byte) (s : State) : Result := hostOperation s <| s.parseBody len decodeReset

/-- RSP_GET_FACTORY_DEFAULTS (R182). -/
def execRspGetFactoryDefaults (len : Byte) (s : State) : Result :=
  hostOperation s <| s.parseBody len decodeFactoryDefaults

/-- RSP_GET_PRODUCT_INFO (R183). -/
def execRspGetProductInfo (len : Byte) (s : State) : Result := hostOperation s <| s.parseBody len decodeProductInfo

/-- RSP_UNSUPPORTED (R184): decode fails although the framing was valid. -/
def execRspUnsupported (_cmd len : Byte) (s : State) : Result :=
  hostOperation s <| s.parseBody len fun _ _ _ _ => none

end Sys2Proof.Machine
end

