-- ==== Sys2Proof/Machine/Receiver.lean ====
section
/-! DEFINITION. The receive event and the receiver's host operations (spec/42_frame_receiver.md). -/

namespace Sys2Proof.Machine

/-- RX (R150). It is no host operation: a halted block drops the byte (R155). -/
def execRx (b : Byte) (rearmOk : Bool) (s : State) : Result := s.receiveByte b rearmOk

/-- RXARM (R156). -/
def execRxarm (s : State) : Result :=
  hostOperation s <|
    if s.env.armOk then { s with receiver := { s.receiver with rxArmed := true } }.answer 0
    else s.raiseHalt .rxRearmFail

/-- FPOLL (R158). -/
def execFpoll (s : State) : Result :=
  hostOperation s <|
    { s with receiver := s.receiver.takeFramePresent.1 }.answer (bitWord s.receiver.takeFramePresent.2)

end Sys2Proof.Machine
end

