-- ==== Sys2Proof/Machine/Session.lean ====
section
/-!
DEFINITION. The sensor command session (spec/44_session.md): the four sends, the command frames they put on the wire, and
the accessors. A command row's meaning is the transmission of that frame (R91, R200); the block runs it inside the send
that the row's rule names (notes/assumptions/4.md).
-/

namespace Sys2Proof.Machine

/-- SMEAS (R201). -/
def execSmeas (s : State) : Result := hostOperation s <| s.sendCommand cmdMeasureCode

/-- SINFO (R202). -/
def execSinfo (s : State) : Result := hostOperation s <| s.sendCommand cmdProductInfoCode

/-- SDEF (R203). -/
def execSdef (s : State) : Result := hostOperation s <| s.sendCommand cmdFactoryDefaultsCode

/-- SRST (R204). It resets nothing in the block. -/
def execSrst (s : State) : Result := hostOperation s <| s.sendCommand cmdResetCode

/-- CMD_MEASURE: the frame 55 AA 81 00 FA goes out (R91, R200, R201). -/
def execCmdMeasure (s : State) : Result := hostOperation s <| s.sendFrame [0x55, 0xAA, 0x81, 0x00, 0xFA]

/-- CMD_GET_PRODUCT_INFO: the frame 55 AA 86 00 FA goes out (R91, R200, R202). -/
def execCmdGetProductInfo (s : State) : Result := hostOperation s <| s.sendFrame [0x55, 0xAA, 0x86, 0x00, 0xFA]

/-- CMD_GET_FACTORY_DEFAULTS: the frame 55 AA 85 00 FA goes out (R91, R200, R203). -/
def execCmdGetFactoryDefaults (s : State) : Result := hostOperation s <| s.sendFrame [0x55, 0xAA, 0x85, 0x00, 0xFA]

/-- CMD_RESET: the frame 55 AA 84 00 FA goes out (R91, R200, R204). -/
def execCmdReset (s : State) : Result := hostOperation s <| s.sendFrame [0x55, 0xAA, 0x84, 0x00, 0xFA]

/-- GDIST (R210): `res[16]` = distanceFresh, `res[15:0]` = distance. -/
def execGdist (s : State) : Result :=
  hostOperation s <|
    { s with sensor := s.sensor.takeDistanceFresh.1 }.answer
      ((BitVec.ofBool s.sensor.takeDistanceFresh.2 ++ s.sensor.distance).setWidth 32)

/-- GERR (R211). -/
def execGerr (s : State) : Result := hostOperation s <| s.answer (s.sensor.errorCode.setWidth 32)

/-- GPORT (R215). -/
def execGport (s : State) : Result :=
  hostOperation s <|
    if s.sensor.port ∈ portCodes then s.answer (s.sensor.port.setWidth 32) else s.raiseHalt .badPort

/-- GFW (R212). -/
def execGfw (s : State) : Result := hostOperation s <| s.answer (s.sensor.firmware.setWidth 32)

/-- GCAL (R217). -/
def execGcal (s : State) : Result :=
  hostOperation s <|
    if s.sensor.calibration ∈ calibrationCodes then s.answer (s.sensor.calibration.setWidth 32)
    else s.raiseHalt .badCal

/-- GPTYPE (R213). -/
def execGptype (s : State) : Result := hostOperation s <| s.answer (s.sensor.productType.setWidth 32)

/-- GOFS (R214). -/
def execGofs (sel : Byte) (s : State) : Result :=
  hostOperation s <|
    match s.sensor.offset.get? sel with
    | some v => s.answer (v.setWidth 32)
    | none => s.raiseHalt .badOperand

/-- GXTALK (R216). -/
def execGxtalk (s : State) : Result := hostOperation s <| s.answer (s.sensor.crosstalk.setWidth 32)

/-- GRDY (R218). -/
def execGrdy (s : State) : Result :=
  hostOperation s <|
    { s with sensor := s.sensor.takeResponseReady.1 }.answer (bitWord s.sensor.takeResponseReady.2)

end Sys2Proof.Machine
end

