-- ==== Sys2Proof/Machine/Timer.lean ====
section
/-! DEFINITION. The timer operations (spec/40_timer.md). -/

namespace Sys2Proof.Machine

/-- TINIT (R115). -/
def execTinit (sel : Byte) (arg : Word) (s : State) : Result :=
  hostOperation s <| s.onTimer sel fun x =>
    match s.cfg.timerVariant with
    | .armOnInit => (timerArm s.now (validate s.cfg (durationOperand s.cfg arg)), 0)
    | .armOnFirstRead =>
      ({ x with duration := validate s.cfg (durationOperand s.cfg arg), running := false }, 0)

/-- TREAD (R117). -/
def execTread (sel : Byte) (s : State) : Result :=
  hostOperation s <| s.onTimer sel fun x =>
    ((timerRead s.cfg.tickW x s.now).1, bitWord (timerRead s.cfg.tickW x s.now).2)

/-- What TWRITE makes of a timer: the new duration and, by the variant, an idled timer or one that restarts from `now`
(R119). -/
def timerWrite (c : Config) (now d : Tick) (x : Timer) : Timer :=
  match c.timerVariant with
  | .armOnFirstRead => { x with duration := d, running := false }
  | .armOnInit =>
    if !x.running && c.writeIdleArms then { start := now, duration := d, running := true } else { x with duration := d }

/-- TWRITE (R119). -/
def execTwrite (sel : Byte) (arg : Word) (s : State) : Result :=
  hostOperation s <| s.onTimer sel fun x =>
    (timerWrite s.cfg s.now (validate s.cfg (durationOperand s.cfg arg)) x, 0)

end Sys2Proof.Machine
end

