-- ==== Sys2Proof/Machine/Dispatch.lean ====
section
/-! DEFINITION. The meaning of each instruction, one arm per constructor of `Instr`. -/

namespace Sys2Proof.Machine

/-- What an instruction does to a state. -/
def exec (i : Instr) (s : State) : Host.Outcome State Fault Refusal :=
  match i with
  | .tinit sel arg => Sys2Proof.Machine.execTinit sel arg s
  | .tread sel => Sys2Proof.Machine.execTread sel s
  | .twrite sel arg => Sys2Proof.Machine.execTwrite sel arg s
  | .dbupd => Sys2Proof.Machine.execDbupd s
  | .dbpush => Sys2Proof.Machine.execDbpush s
  | .dbheld => Sys2Proof.Machine.execDbheld s
  | .dbrel => Sys2Proof.Machine.execDbrel s
  | .rxarm => Sys2Proof.Machine.execRxarm s
  | .fpoll => Sys2Proof.Machine.execFpoll s
  | .parse => Sys2Proof.Machine.execParse s
  | .smeas => Sys2Proof.Machine.execSmeas s
  | .sinfo => Sys2Proof.Machine.execSinfo s
  | .sdef => Sys2Proof.Machine.execSdef s
  | .srst => Sys2Proof.Machine.execSrst s
  | .gdist => Sys2Proof.Machine.execGdist s
  | .gerr => Sys2Proof.Machine.execGerr s
  | .gport => Sys2Proof.Machine.execGport s
  | .gfw => Sys2Proof.Machine.execGfw s
  | .gcal => Sys2Proof.Machine.execGcal s
  | .gptype => Sys2Proof.Machine.execGptype s
  | .gofs sel => Sys2Proof.Machine.execGofs sel s
  | .gxtalk => Sys2Proof.Machine.execGxtalk s
  | .grdy => Sys2Proof.Machine.execGrdy s
  | .illegal op => Sys2Proof.Machine.execIllegal op s
  | .rx b rearmOk => Sys2Proof.Machine.execRx b rearmOk s
  | .cmdMeasure => Sys2Proof.Machine.execCmdMeasure s
  | .cmdGetProductInfo => Sys2Proof.Machine.execCmdGetProductInfo s
  | .cmdGetFactoryDefaults => Sys2Proof.Machine.execCmdGetFactoryDefaults s
  | .cmdReset => Sys2Proof.Machine.execCmdReset s
  | .rspMeasure len => Sys2Proof.Machine.execRspMeasure len s
  | .rspReset len => Sys2Proof.Machine.execRspReset len s
  | .rspGetFactoryDefaults len => Sys2Proof.Machine.execRspGetFactoryDefaults len s
  | .rspGetProductInfo len => Sys2Proof.Machine.execRspGetProductInfo len s
  | .rspUnsupported cmd len => Sys2Proof.Machine.execRspUnsupported cmd len s

end Sys2Proof.Machine
end

