-- ==== Sys2Proof/Machine/Fetch.lean ====
section
/-!
DEFINITION. Where a step finds its next instruction (spec/00_scope.md R6, spec/10_state.md R21): the oldest pending event
of the environment. A host word and a receive event are one instruction each. A wire frame comes to run inside the host
operation that handles it: a command frame inside its send, a response frame inside PARSE, from the buffer.
-/

namespace Sys2Proof.Machine

/-- What the next event asks for. -/
inductive Fetched where
  /-- No event is pending: the block holds its state (R6). -/
  | idle
  /-- The instruction to run, and the state it runs in: the event is taken off and its inputs are sampled. -/
  | instr (i : Instr) (s : State)
  /-- The reset event, and the state it applies to. -/
  | reset (s : State)
deriving DecidableEq, Repr

/-- Take the next event. An event starts with no result word (R81). -/
def State.fetch (s : State) : Fetched :=
  match s.pending with
  | [] => .idle
  | .host w env :: rest => .instr (decodeHost w) { s with pending := rest, env := env, result := none }
  | .rx b rearmOk :: rest => .instr (.rx b rearmOk) { s with pending := rest, result := none }
  | .reset :: rest => .reset { s with pending := rest, result := none }

/-- No event: the block holds its state (R6); a run that ends halted ends in a fault (R233). -/
def State.idle (s : State) : Result := hostOperation s <| .next s

/-- The buffer that holds `bytes` from `lo` on and 0x00 elsewhere. -/
def Memory.ofBytes (lo : Nat) : List Byte → Memory
  | [] => []
  | b :: bs => Memory.put lo b (Memory.ofBytes (lo + 1) bs)

/-- The operation code of the send that transmits a command row (R201-R204); no other row has one. -/
def sendOpOf (i : Instr) : Option Byte :=
  match i with
  | .cmdMeasure => some 0x30
  | .cmdGetProductInfo => some 0x31
  | .cmdGetFactoryDefaults => some 0x32
  | .cmdReset => some 0x33
  | _ => none

/-- `s` with the encoded instruction placed where the next step takes it: a host word or a receive event in front of the
pending events; a command frame as the send that transmits it; a response frame in the buffer with PARSE in front. -/
def State.place (s : State) (c : Code) : State :=
  match c with
  | .host w => { s with pending := .host w s.env :: s.pending }
  | .rx v => { s with pending := .rx (v.extractLsb' 0 8) (v.getLsbD 8) :: s.pending }
  | .command bytes =>
    match (decodeCommand bytes).toOption.bind sendOpOf with
    | some op => { s with pending := .host (hostWord op 0 0) s.env :: s.pending }
    | none => s
  | .response bytes =>
    { s with
      receiver := { s.receiver with buf := Memory.ofBytes 0 (bytes.take frameMax) }
      pending := .host (hostWord 0x22 0 0) s.env :: s.pending }

end Sys2Proof.Machine
end

