-- ==== Sys2Proof/Machine/Step.lean ====
section
/-! DEFINITION. One step of the block: one event of the environment (spec/00_scope.md R6). -/

namespace Sys2Proof.Machine

/-- Apply the next event. -/
def step (s : State) : Host.Outcome State Fault Refusal :=
  match s.fetch with
  | .idle => s.idle
  | .instr i s' => exec i s'
  | .reset s' => .next s'.resetEvent

/-- The state with the instruction of a table row's bits placed where the next step takes it (notes/assumptions/2.md). -/
def State.withFetchWord (s : State) (nbits w : Nat) : State := s.place (tableCode nbits w)

end Sys2Proof.Machine
end

