-- ==== Sys2Proof/Safety.lean ====
section
/-!
DEFINITION. The terms claims are stated in: a running block, the invariant of spec/10_state.md R40, runs over the
environment's events, and safe runs.
-/

namespace Sys2Proof.Machine

/-- The block is not halted (R37). -/
abbrev State.Live (s : State) : Prop := s.halt.halted = false

/-- A tick value of `w` bits (R24). -/
abbrev FitsTick (w : Nat) (x : Tick) : Prop := x.toNat < 2 ^ w

/-- The invariant of R40, with what else every event keeps: the parameters meet R9, the buffer has its canonical form,
there are N_TIMERS timers (R24), ticks have TICK_W bits (R24), `DT` runs while a transition is being confirmed (R132), and
`released` stays 0 where there is no release event (R27). -/
structure State.Inv (s : State) : Prop where
  cfgOk : s.cfg.Ok
  bufWf : s.receiver.buf.wf = true
  idxLe : s.receiver.idx.toNat ≤ frameMax
  pressingLevel :
    s.debounce.pressing = true ↔ s.debounce.dbState = .pressed ∨ s.debounce.dbState = .confirmingRelease
  liveCause : s.halt.halted = false → s.halt.cause = .noCause
  haltedCause : s.halt.halted = true → s.halt.cause ≠ .noCause ∧ s.receiver.rxArmed = false
  timerCount : s.timers.length = s.cfg.nTimers
  timersOk : ∀ x ∈ s.timers, x.duration ≠ 0 ∧ FitsTick s.cfg.tickW x.duration ∧ FitsTick s.cfg.tickW x.start
  debounceDuration : s.debounce.timer.duration = s.cfg.debounceMs
  debounceStart : FitsTick s.cfg.tickW s.debounce.timer.start
  debounceRuns :
    s.debounce.dbState = .confirmingPress ∨ s.debounce.dbState = .confirmingRelease →
      s.debounce.timer.running = true
  noRelease : s.cfg.hasReleaseEvent = false → s.debounce.released = false

/-- The result words of the next `n` events, as far as they go without a stop. -/
def results : Nat → State → List (Option Word)
  | 0, _ => []
  | n + 1, s =>
    match step s with
    | .next s' => s'.result :: results n s'
    | .fault _ => []
    | .refused _ => []

/-- The outcome of the next `n` events, stopping at the first fault or refusal. -/
def run : Nat → State → Result
  | 0, s => .next s
  | n + 1, s =>
    match step s with
    | .next s' => run n s'
    | .fault r => .fault r
    | .refused r => .refused r

/-- The next `n` events run without a stop and none of them halts the block: what R233 lets a run count as normal. -/
def SafeRun : Nat → State → Prop
  | 0, s => s.Live
  | n + 1, s => s.Live ∧ ∃ s', step s = .next s' ∧ SafeRun n s'

/-- Bytes received in order, each with a successful re-arm (R94 `rx`). -/
def rxEvents (bytes : List Byte) : List Event := bytes.map fun b => .rx b true

/-- The host event of an operation's word at the true time `t`, with the pin at `pin` and the transport answering yes. -/
def hostEventAt (w : HostWord) (t : Nat) (pin : Bool) : Event :=
  .host w { now := BitVec.ofNat 32 t, pin := pin, txOk := true, armOk := true }

/-- What R120 expects of reads at the true times given, for a timer of duration `d` armed at true time `s`: a read
reports expiry once `d` ticks have passed, and the timer is then armed at that read. -/
def expectedExpiries (d : Nat) (s : Nat) : List Nat → List Bool
  | [] => []
  | r :: rs => if d ≤ r - s then true :: expectedExpiries d r rs else false :: expectedExpiries d s rs

/-- Each read comes, less than 2^w true ticks, after the arming or restart that it times (R271). -/
def readsNearArming (w d : Nat) (s : Nat) : List Nat → Prop
  | [] => True
  | r :: rs => s ≤ r ∧ r - s < 2 ^ w ∧ (if d ≤ r - s then readsNearArming w d r rs else readsNearArming w d s rs)

/-- Each read comes after the one before it, by at most 2^w - 1 true ticks (R120). -/
def readsNearEachOther (w : Nat) (s : Nat) : List Nat → Prop
  | [] => True
  | r :: rs => s < r ∧ r - s ≤ 2 ^ w - 1 ∧ readsNearEachOther w r rs

end Sys2Proof.Machine
end

