-- ==== Sys2Proof/Certificates/Slice0/Obligations.lean ====
section
/-!
DEFINITION. The statements for the provers. Each docstring names the rule of spec/ it formalises. Throughout, `s.Live`
says the block is not halted, `s.now` is the tick input, `x.duration.toNat ≤ (s.now - x.start).toNat % 2 ^ s.cfg.tickW`
is the expiry test of R112 and R113, and `Memory.read s.receiver.buf a` is the byte of `buf` at index `a`.
-/

open Sys2Proof Sys2Proof.Machine

/-! ### Encoding and the step -/

/-- Decoding the encoding of a well-formed instruction gives the instruction (R80, R84, R85, R87, R91, R92). -/
def Obligations.DecodeOfEncode : Prop := ∀ i : Instr, i.WellFormed → decode (encode i) = .ok i

/-- Encoding the operation decoded from a host word gives that word with its ignored fields 0 (R82, R86). -/
def Obligations.EncodeOfDecodedHostWord : Prop :=
  ∀ w : HostWord,
    (decodeHost w).WellFormed ∧
    encode (decodeHost w) =
      .host (hostWord (opField w)
        (if opField w ∈ [0x01, 0x02, 0x03, 0x46] then selField w else 0)
        (if opField w ∈ [0x01, 0x03] then argField w else 0))

/-- R82: format N ignores `sel` and `arg`; format T takes a timer id, with the duration in `arg` for TINIT and TWRITE
alone; format I takes an index; an ignored field changes nothing. -/
def Obligations.IgnoredFieldsChangeNothing : Prop :=
  ∀ w w' : HostWord, opField w = opField w' →
    (opField w ∉ [0x01, 0x02, 0x03, 0x46] → decodeHost w = decodeHost w') ∧
    (opField w ∈ [0x02, 0x46] → selField w = selField w' → decodeHost w = decodeHost w') ∧
    (opField w = 0x01 → decodeHost w = .tinit (selField w) (argField w)) ∧
    (opField w = 0x02 → decodeHost w = .tread (selField w)) ∧
    (opField w = 0x03 → decodeHost w = .twrite (selField w) (argField w)) ∧
    (opField w = 0x46 → decodeHost w = .gofs (selField w))

/-- The encoding examples of R96, the command frames of R91 and a response header of R92 decode as the spec says. -/
def Obligations.SpecWordsDecode : Prop :=
  decode (.host 0x000000320001) = .ok (.tinit 0 50) ∧
  decode (.host 0x123456780101) = .ok (.tinit 1 0x12345678) ∧
  decode (.host 0x000000000102) = .ok (.tread 1) ∧
  decode (.host 0x000000000010) = .ok .dbupd ∧
  decode (.host 0x000000000022) = .ok .parse ∧
  decode (.host 0x000000000346) = .ok (.gofs 3) ∧
  decode (.host 0x000000000048) = .ok .grdy ∧
  decode (.command [0x55, 0xAA, 0x81, 0x00, 0xFA]) = .ok .cmdMeasure ∧
  decode (.response [0x55, 0xAA, 0x81, 0x03]) = .ok (.rspMeasure 3)

/-- One step applies the oldest pending event: a host word runs the instruction it decodes to, with the inputs of that
event; a receive event runs RX; a reset event resets; with no event the block holds its state (R6). That the events stand
in a list in the state is the model's choice (notes/assumptions/2.md). -/
def Obligations.StepAppliesNextEvent : Prop :=
  ∀ (s : State) (rest : List Event),
    (∀ (w : HostWord) (env : Env) (i : Instr), decode (.host w) = .ok i →
      step { s with pending := .host w env :: rest } =
        exec i { s with pending := rest, env := env, result := none }) ∧
    (∀ (b : Byte) (ok : Bool),
      step { s with pending := .rx b ok :: rest } = exec (.rx b ok) { s with pending := rest, result := none }) ∧
    step { s with pending := .reset :: rest } = .next { s with pending := rest, result := none }.resetEvent ∧
    (s.Live → step { s with pending := [] } = .next { s with pending := [] })

/-- Every well-formed instruction, placed where the next step takes it, is the instruction that step runs: a host
operation and a receive event as the next event, a command frame as the send that transmits it, and a response frame in
the buffer with PARSE as the next event (the model's choice: notes/assumptions/2.md, notes/assumptions/4.md). -/
def Obligations.StepRunsPlacedInstruction : Prop :=
  ∀ (i : Instr) (s : State), i.WellFormed →
    step (s.place (encode i)) =
      exec i { s with receiver := (s.place (encode i)).receiver, result := none }

/-! ### Timers -/

/-- R111: only 0 and, under DUR_CHECK_SIGNED, a value with bit TICK_W-1 set are replaced by DEFAULT_DURATION, and the
result is never 0. -/
def Obligations.DurationValidation : Prop :=
  ∀ (c : Config) (arg : Word), c.Ok →
    ∀ d r : Nat, d = arg.toNat % 2 ^ c.tickW → r = (validate c (durationOperand c arg)).toNat →
      (d = 0 → r = c.defaultDuration.toNat) ∧
      (d ≠ 0 → c.durCheckSigned = false → r = d) ∧
      (c.durCheckSigned = true → 2 ^ (c.tickW - 1) ≤ d → r = c.defaultDuration.toNat) ∧
      (c.durCheckSigned = true → d ≠ 0 → d < 2 ^ (c.tickW - 1) → r = d) ∧
      r ≠ 0

/-- R115: TINIT halts on an id past the timers; else it arms the timer from now, or leaves it idle in the variant that
arms on the first read. -/
def Obligations.TimerInitResult : Prop :=
  ∀ (k : Byte) (arg : Word) (s : State), s.Live → s.timers.length = s.cfg.nTimers →
    (s.cfg.nTimers ≤ k.toNat → exec (.tinit k arg) s = .next (s.haltEntry .badTimer)) ∧
    (k.toNat < s.cfg.nTimers → ∃ x, s.timers[k.toNat]? = some x ∧
      ∀ dv, dv = validate s.cfg (durationOperand s.cfg arg) →
        (s.cfg.timerVariant = .armOnInit →
          exec (.tinit k arg) s = .next { s with
            timers := s.timers.set k.toNat { start := s.now, duration := dv, running := true }, result := some 0 }) ∧
        (s.cfg.timerVariant = .armOnFirstRead →
          exec (.tinit k arg) s = .next { s with
            timers := s.timers.set k.toNat { x with duration := dv, running := false }, result := some 0 }))

/-- R117: TREAD halts on an id past the timers; else it arms an idle timer, reports and restarts an expired one, and
leaves a running one that has not expired. -/
def Obligations.TimerReadResult : Prop :=
  ∀ (k : Byte) (s : State), s.Live → s.timers.length = s.cfg.nTimers →
    (s.cfg.nTimers ≤ k.toNat → exec (.tread k) s = .next (s.haltEntry .badTimer)) ∧
    (k.toNat < s.cfg.nTimers → ∃ x, s.timers[k.toNat]? = some x ∧
      (x.running = false →
        exec (.tread k) s = .next { s with
          timers := s.timers.set k.toNat { x with start := s.now, running := true }, result := some 0 }) ∧
      (x.running = true → x.duration.toNat ≤ (s.now - x.start).toNat % 2 ^ s.cfg.tickW →
        exec (.tread k) s = .next { s with
          timers := s.timers.set k.toNat { x with start := s.now }, result := some 1 }) ∧
      (x.running = true → (s.now - x.start).toNat % 2 ^ s.cfg.tickW < x.duration.toNat →
        exec (.tread k) s = .next { s with result := some 0 }))

/-- R119: TWRITE halts on an id past the timers; else it writes the duration and, by the variant, idles the timer or
restarts an idle one from now. -/
def Obligations.TimerWriteResult : Prop :=
  ∀ (k : Byte) (arg : Word) (s : State), s.Live → s.timers.length = s.cfg.nTimers →
    (s.cfg.nTimers ≤ k.toNat → exec (.twrite k arg) s = .next (s.haltEntry .badTimer)) ∧
    (k.toNat < s.cfg.nTimers → ∃ x, s.timers[k.toNat]? = some x ∧
      ∀ dv, dv = validate s.cfg (durationOperand s.cfg arg) →
        (s.cfg.timerVariant = .armOnFirstRead →
          exec (.twrite k arg) s = .next { s with
            timers := s.timers.set k.toNat { x with duration := dv, running := false }, result := some 0 }) ∧
        (s.cfg.timerVariant = .armOnInit → x.running = false → s.cfg.writeIdleArms = true →
          exec (.twrite k arg) s = .next { s with
            timers := s.timers.set k.toNat { start := s.now, duration := dv, running := true }, result := some 0 }) ∧
        (s.cfg.timerVariant = .armOnInit → x.running = true ∨ s.cfg.writeIdleArms = false →
          exec (.twrite k arg) s = .next { s with
            timers := s.timers.set k.toNat { x with duration := dv }, result := some 0 }))

/-- R123: an operation on `T[k]` writes only `T[k]` and the result, and what it writes depends on `T[k]`, the parameters
and the tick alone. -/
def Obligations.TimerIndependence : Prop :=
  ∀ (k : Byte) (i : Instr) (s t : State),
    (i = .tread k ∨ ∃ arg, i = .tinit k arg ∨ i = .twrite k arg) → k.toNat < s.timers.length → exec i s = .next t →
      t = { s with timers := t.timers, result := t.result } ∧
      (∀ j, j ≠ k.toNat → t.timers[j]? = s.timers[j]?) ∧
      ∀ s' : State, s'.Live → s'.cfg = s.cfg → s'.env.now = s.env.now → s'.timers[k.toNat]? = s.timers[k.toNat]? →
        ∃ t', exec i s' = .next t' ∧ t'.timers[k.toNat]? = t.timers[k.toNat]? ∧ t'.result = t.result

/-- The expiry law of R120, under the bound of R271: a timer armed at true time `armed`, read at the true times `times`,
each less than 2^TICK_W ticks after the arming or restart it times, reports expiry at exactly the reads by which its
duration has passed since then. The counter may wrap any number of times (R121). -/
def Obligations.TimerExpiryLaw : Prop :=
  ∀ (s : State) (k : Byte) (x : Timer) (armed : Nat) (times : List Nat) (rest : List Event),
    s.Live → s.cfg.Ok → s.timers[k.toNat]? = some x → x.running = true →
    x.start.toNat = armed % 2 ^ s.cfg.tickW → FitsTick s.cfg.tickW x.duration →
    readsNearArming s.cfg.tickW x.duration.toNat armed times →
      results times.length
          { s with pending := times.map (fun r => hostEventAt (hostWord 0x02 k 0) r true) ++ rest } =
        (expectedExpiries x.duration.toNat armed times).map fun e => some (if e then 1 else 0)

/-- The expiry law under the premise R120 itself writes, that consecutive reads are at most 2^TICK_W - 1 ticks apart. It
is expected to FAIL: two reads that both come before expiry can add up to more than 2^TICK_W ticks since the arming, and
the elapsed time of R112 then aliases (notes/assumptions/18.md). -/
def Obligations.TimerExpiryUnderReadGapsAlone : Prop :=
  ∀ (s : State) (k : Byte) (x : Timer) (armed : Nat) (times : List Nat) (rest : List Event),
    s.Live → s.cfg.Ok → s.timers[k.toNat]? = some x → x.running = true →
    x.start.toNat = armed % 2 ^ s.cfg.tickW → FitsTick s.cfg.tickW x.duration →
    readsNearEachOther s.cfg.tickW armed times →
      results times.length
          { s with pending := times.map (fun r => hostEventAt (hostWord 0x02 k 0) r true) ++ rest } =
        (expectedExpiries x.duration.toNat armed times).map fun e => some (if e then 1 else 0)

/-! ### Debounce -/

/-- R131, row by row: DBUPD samples the pin once, arms `DT` on leaving a confirmed state, and decides at the expiry of
`DT`. (The rows with an idle `DT` in a confirming state, which no run reaches, are what the timer read of R113 gives.) -/
def Obligations.DebounceTransitions : Prop :=
  ∀ s : State, s.Live →
    ∀ d : Debounce, d = s.debounce →
    ∀ expired waiting idle : Prop,
      expired = (d.timer.running = true ∧
        d.timer.duration.toNat ≤ (s.now - d.timer.start).toNat % 2 ^ s.cfg.tickW) →
      waiting = (d.timer.running = true ∧
        (s.now - d.timer.start).toNat % 2 ^ s.cfg.tickW < d.timer.duration.toNat) →
      idle = (d.timer.running = false) →
      (d.dbState = .released → s.env.pin = false →
        exec .dbupd s = .next { s with result := some 0, debounce := { d with
          dbState := .confirmingPress, timer := { start := s.now, duration := s.cfg.debounceMs, running := true } } }) ∧
      (d.dbState = .released → s.env.pin = true → exec .dbupd s = .next { s with result := some 0 }) ∧
      (d.dbState = .confirmingPress → expired → s.env.pin = false →
        exec .dbupd s = .next { s with result := some 0, debounce := { d with
          dbState := .pressed, pushed := true, pressing := true, timer := { d.timer with start := s.now } } }) ∧
      (d.dbState = .confirmingPress → expired → s.env.pin = true →
        exec .dbupd s = .next { s with result := some 0, debounce := { d with
          dbState := .released, timer := { d.timer with start := s.now } } }) ∧
      (d.dbState = .pressed → s.env.pin = true →
        exec .dbupd s = .next { s with result := some 0, debounce := { d with
          dbState := .confirmingRelease,
          timer := { start := s.now, duration := s.cfg.debounceMs, running := true } } }) ∧
      (d.dbState = .pressed → s.env.pin = false → exec .dbupd s = .next { s with result := some 0 }) ∧
      (d.dbState = .confirmingRelease → expired → s.env.pin = true →
        exec .dbupd s = .next { s with result := some 0, debounce := { d with
          dbState := .released, pressing := false,
          released := if s.cfg.hasReleaseEvent then true else d.released,
          timer := { d.timer with start := s.now } } }) ∧
      (d.dbState = .confirmingRelease → expired → s.env.pin = false →
        exec .dbupd s = .next { s with result := some 0, debounce := { d with
          dbState := .pressed, timer := { d.timer with start := s.now } } }) ∧
      (d.dbState = .confirmingPress ∨ d.dbState = .confirmingRelease → waiting →
        exec .dbupd s = .next { s with result := some 0 }) ∧
      (d.dbState = .confirmingPress ∨ d.dbState = .confirmingRelease → idle →
        exec .dbupd s = .next { s with result := some 0, debounce := { d with
          timer := { d.timer with start := s.now, running := true } } })

/-- R137: DBPUSH returns `pushed` and clears it. -/
def Obligations.PushedReadOnce : Prop :=
  ∀ s : State, s.Live →
    exec .dbpush s = .next { s with
      debounce := { s.debounce with pushed := false }, result := some (if s.debounce.pushed then 1 else 0) }

/-- R139: DBHELD returns `pressing` and changes nothing. -/
def Obligations.HeldLevelRead : Prop :=
  ∀ s : State, s.Live →
    exec .dbheld s = .next { s with result := some (if s.debounce.pressing then 1 else 0) }

/-- R141: with a release event DBREL returns `released` and clears it; without one it halts with ILLEGAL_OP. -/
def Obligations.ReleasedReadOnce : Prop :=
  ∀ s : State, s.Live →
    (s.cfg.hasReleaseEvent = true →
      exec .dbrel s = .next { s with
        debounce := { s.debounce with released := false }, result := some (if s.debounce.released then 1 else 0) }) ∧
    (s.cfg.hasReleaseEvent = false → exec .dbrel s = .next (s.haltEntry .illegalOp))

/-- R133: among the instructions only DBUPD changes `dbState`, `DT` and `pressing`, and only DBUPD sets `pushed` and
`released`. -/
def Obligations.OnlyUpdateMovesDebounce : Prop :=
  ∀ (i : Instr) (s t : State), exec i s = .next t → i ≠ .dbupd →
    t.debounce.dbState = s.debounce.dbState ∧ t.debounce.timer = s.debounce.timer ∧
    t.debounce.pressing = s.debounce.pressing ∧
    (t.debounce.pushed = true → s.debounce.pushed = true) ∧
    (t.debounce.released = true → s.debounce.released = true)

/-- The press confirmation law of R143: from Released, a low sample at true time `u0` starts a confirmation; DBUPDs less
than DEBOUNCE_MS later change nothing, whatever the pin; the first one at or after DEBOUNCE_MS decides by its own sample. -/
def Obligations.PressConfirmation : Prop :=
  ∀ (s : State) (u0 ub : Nat) (pb : Bool) (waits : List (Nat × Bool)) (rest : List Event),
    s.Live → s.cfg.Ok → s.debounce.dbState = .released →
    (∀ p ∈ waits, u0 ≤ p.1 ∧ p.1 - u0 < s.cfg.debounceMs.toNat) →
    u0 ≤ ub → s.cfg.debounceMs.toNat ≤ ub - u0 → ub - u0 < 2 ^ s.cfg.tickW →
    ∀ before : State,
      before = { s with
        pending := hostEventAt 0x10 u0 false :: waits.map (fun p => hostEventAt 0x10 p.1 p.2) ++
          hostEventAt 0x10 ub pb :: rest } →
      (∃ t, run (waits.length + 1) before = .next t ∧ t.debounce.dbState = .confirmingPress ∧
        t.debounce.pushed = s.debounce.pushed ∧ t.debounce.pressing = s.debounce.pressing) ∧
      ∃ t, run (waits.length + 2) before = .next t ∧ t.pending = rest ∧
        t.debounce.released = s.debounce.released ∧
        (pb = false → t.debounce.dbState = .pressed ∧ t.debounce.pushed = true ∧ t.debounce.pressing = true) ∧
        (pb = true → t.debounce.dbState = .released ∧ t.debounce.pushed = s.debounce.pushed ∧
          t.debounce.pressing = s.debounce.pressing)

/-- The symmetric law for a release (R143, R145): from Pressed, a high sample starts the confirmation, and a confirmed
release clears `pressing` and, with a release event, sets `released`, in the same DBUPD. -/
def Obligations.ReleaseConfirmation : Prop :=
  ∀ (s : State) (u0 ub : Nat) (pb : Bool) (waits : List (Nat × Bool)) (rest : List Event),
    s.Live → s.cfg.Ok → s.debounce.dbState = .pressed →
    (∀ p ∈ waits, u0 ≤ p.1 ∧ p.1 - u0 < s.cfg.debounceMs.toNat) →
    u0 ≤ ub → s.cfg.debounceMs.toNat ≤ ub - u0 → ub - u0 < 2 ^ s.cfg.tickW →
    ∀ before : State,
      before = { s with
        pending := hostEventAt 0x10 u0 true :: waits.map (fun p => hostEventAt 0x10 p.1 p.2) ++
          hostEventAt 0x10 ub pb :: rest } →
      (∃ t, run (waits.length + 1) before = .next t ∧ t.debounce.dbState = .confirmingRelease ∧
        t.debounce.released = s.debounce.released ∧ t.debounce.pressing = s.debounce.pressing) ∧
      ∃ t, run (waits.length + 2) before = .next t ∧ t.pending = rest ∧
        t.debounce.pushed = s.debounce.pushed ∧
        (pb = true → t.debounce.dbState = .released ∧ t.debounce.pressing = false ∧
          t.debounce.released = (s.debounce.released || s.cfg.hasReleaseEvent)) ∧
        (pb = false → t.debounce.dbState = .pressed ∧ t.debounce.pressing = s.debounce.pressing ∧
          t.debounce.released = s.debounce.released)

/-! ### Receiver -/

/-- R150: a byte is dropped while the block is halted or disarmed; else it is stored at the write index (0 where the
buffer was full) and every other byte stays, the index moves on or resets silently at capacity, a terminator raises
`framePresent`, and a failed re-arm halts with all of that kept. -/
def Obligations.ReceiveByteResult : Prop :=
  ∀ (s : State) (b : Byte),
    (s.halt.halted = true ∨ s.receiver.rxArmed = false → ∀ ok, exec (.rx b ok) s = .next s) ∧
    (s.Live → s.receiver.rxArmed = true → s.receiver.idx.toNat ≤ 32 → s.receiver.buf.wf = true →
      ∀ i : Nat, i = (if s.receiver.idx.toNat = 32 then 0 else s.receiver.idx.toNat) →
        ∃ r : Receiver,
          exec (.rx b true) s = .next { s with receiver := r } ∧
          exec (.rx b false) s = .next ({ s with receiver := r }.haltEntry .rxRearmFail) ∧
          Memory.read r.buf i = b ∧
          (∀ a, a ≠ i → Memory.read r.buf a = Memory.read s.receiver.buf a) ∧
          r.idx.toNat = (if b ≠ 0xFA ∧ i = 31 then 0 else i + 1) ∧
          r.framePresent = (s.receiver.framePresent || b == 0xFA) ∧
          r.rxArmed = true)

/-- R156: RXARM arms the receive, or halts with RX_REARM_FAIL where the platform fails. -/
def Obligations.ReceiveArmResult : Prop :=
  ∀ s : State, s.Live →
    (s.env.armOk = true →
      exec .rxarm s = .next { s with receiver := { s.receiver with rxArmed := true }, result := some 0 }) ∧
    (s.env.armOk = false → exec .rxarm s = .next (s.haltEntry .rxRearmFail))

/-- R158: FPOLL returns `framePresent` and clears it. -/
def Obligations.FramePollReadOnce : Prop :=
  ∀ s : State, s.Live →
    exec .fpoll s = .next { s with
      receiver := { s.receiver with framePresent := false },
      result := some (if s.receiver.framePresent then 1 else 0) }

/-- R68: a byte of `buf` changes only where a receive event stores at its index, or at reset. -/
def Obligations.BufferWrittenOnlyByReceive : Prop :=
  ∀ (s t : State) (a : Nat), step s = .next t → Memory.read t.receiver.buf a ≠ Memory.read s.receiver.buf a →
    (∃ b ok rest, s.pending = .rx b ok :: rest ∧ s.Live ∧ s.receiver.rxArmed = true ∧
      a = (if s.receiver.idx.toNat = 32 then 0 else s.receiver.idx.toNat)) ∨
    (∃ rest, s.pending = .reset :: rest ∧ Memory.read t.receiver.buf a = 0)

/-- R42: a receive event writes only `buf`, `idx`, `framePresent`, `rxArmed`, `halted` and `haltCause`. -/
def Obligations.ReceiveTouchesOnlyReceiver : Prop :=
  ∀ (b : Byte) (ok : Bool) (s t : State), exec (.rx b ok) s = .next t →
    t = { s with receiver := t.receiver, halt := t.halt, result := t.result }

/-- The clean frame law of R160. -/
def Obligations.CleanFrameReception : Prop :=
  ∀ (s : State) (bytes : List Byte) (rest : List Event),
    s.Live → s.receiver.rxArmed = true → s.receiver.idx = 0 → s.receiver.buf.wf = true →
    bytes.length + 1 ≤ 32 → 0xFA ∉ bytes →
    ∃ r : Receiver,
      run (bytes.length + 1) { s with pending := rxEvents (bytes ++ [0xFA]) ++ rest } =
        .next { s with pending := rest, receiver := r, result := none } ∧
      (∀ (k : Nat) (hk : k < (bytes ++ [0xFA]).length), Memory.read r.buf k = (bytes ++ [(0xFA : Byte)])[k]) ∧
      (∀ a, bytes.length + 1 ≤ a → Memory.read r.buf a = Memory.read s.receiver.buf a) ∧
      r.idx.toNat = bytes.length + 1 ∧ r.framePresent = true ∧ r.rxArmed = true

/-- The overflow law of R161: 32 bytes without a terminator fill the buffer, reset the index silently and leave the
frame-present flag. -/
def Obligations.OverflowReception : Prop :=
  ∀ (s : State) (bytes : List Byte) (rest : List Event),
    s.Live → s.receiver.rxArmed = true → s.receiver.idx = 0 → s.receiver.buf.wf = true →
    bytes.length = 32 → 0xFA ∉ bytes →
    ∃ r : Receiver,
      run 32 { s with pending := rxEvents bytes ++ rest } =
        .next { s with pending := rest, receiver := r, result := none } ∧
      (∀ (k : Nat) (hk : k < bytes.length), Memory.read r.buf k = bytes[k]) ∧
      r.idx = 0 ∧ r.framePresent = s.receiver.framePresent ∧ r.rxArmed = true

/-! ### Parser -/

/-- R178: on every failure path PARSE resets the write index, returns 0 and writes nothing else. -/
def Obligations.ParseFailure : Prop :=
  ∀ s : State, s.Live →
    ∀ (rd : Nat → Byte) (len : Nat), (∀ a, rd a = Memory.read s.receiver.buf a) → len = (rd 3).toNat →
      (rd 0 ≠ 0x55 ∨ rd 1 ≠ 0xAA ∨ 32 < len + 5 ∨ rd (4 + len) ≠ 0xFA ∨ rd 2 ∉ [0x81, 0x84, 0x85, 0x86] ∨
        (s.cfg.decodeLenCheck = .atLeast ∧
          (rd 2 = 0x81 ∧ len < 3 ∨ rd 2 = 0x85 ∧ len < 7 ∨ rd 2 = 0x86 ∧ len < 3))) →
      exec .parse s = .next { s with receiver := { s.receiver with idx := 0 }, result := some 0 }

/-- R180 with R179: a Measure response writes distance (big-endian), errorCode and `distanceFresh`, raises
`responseReady`, resets the index and returns 1, inside PARSE and as a row (that a row runs by itself is the model's
choice, notes/assumptions/4.md; so in the next five statements). -/
def Obligations.MeasureResponseDecoded : Prop :=
  ∀ (s : State) (len : Byte), s.Live →
    ∀ rd : Nat → Byte, (∀ a, rd a = Memory.read s.receiver.buf a) →
      len.toNat + 5 ≤ 32 → rd (4 + len.toNat) = 0xFA → (s.cfg.decodeLenCheck = .unchecked ∨ 3 ≤ len.toNat) →
      ∀ t : State,
        t = { s with
          receiver := { s.receiver with idx := 0 }
          sensor := { s.sensor with
            distance := rd 4 ++ rd 5, errorCode := rd 6, distanceFresh := true, responseReady := true }
          result := some 1 } →
        exec (.rspMeasure len) s = .next t ∧
        (rd 0 = 0x55 → rd 1 = 0xAA → rd 2 = 0x81 → rd 3 = len → exec .parse s = .next t)

/-- R181 with R179: a Reset response writes no field and raises `responseReady`, whatever its LEN. -/
def Obligations.ResetResponseDecoded : Prop :=
  ∀ (s : State) (len : Byte), s.Live →
    ∀ rd : Nat → Byte, (∀ a, rd a = Memory.read s.receiver.buf a) →
      len.toNat + 5 ≤ 32 → rd (4 + len.toNat) = 0xFA →
      ∀ t : State,
        t = { s with
          receiver := { s.receiver with idx := 0 }
          sensor := { s.sensor with responseReady := true }
          result := some 1 } →
        exec (.rspReset len) s = .next t ∧
        (rd 0 = 0x55 → rd 1 = 0xAA → rd 2 = 0x84 → rd 3 = len → exec .parse s = .next t)

/-- R182 with R179: a Get-factory-defaults response writes the four offsets, crosstalk (big-endian) and the raw
calibration byte. -/
def Obligations.FactoryDefaultsResponseDecoded : Prop :=
  ∀ (s : State) (len : Byte), s.Live →
    ∀ rd : Nat → Byte, (∀ a, rd a = Memory.read s.receiver.buf a) →
      len.toNat + 5 ≤ 32 → rd (4 + len.toNat) = 0xFA → (s.cfg.decodeLenCheck = .unchecked ∨ 7 ≤ len.toNat) →
      ∀ t : State,
        t = { s with
          receiver := { s.receiver with idx := 0 }
          sensor := { s.sensor with
            offset := { o0 := rd 4, o1 := rd 5, o2 := rd 6, o3 := rd 7 }
            crosstalk := rd 8 ++ rd 9, calibration := rd 10, responseReady := true }
          result := some 1 } →
        exec (.rspGetFactoryDefaults len) s = .next t ∧
        (rd 0 = 0x55 → rd 1 = 0xAA → rd 2 = 0x85 → rd 3 = len → exec .parse s = .next t)

/-- R183 with R179: a Get-product-info response writes productType, the raw port byte and firmware. -/
def Obligations.ProductInfoResponseDecoded : Prop :=
  ∀ (s : State) (len : Byte), s.Live →
    ∀ rd : Nat → Byte, (∀ a, rd a = Memory.read s.receiver.buf a) →
      len.toNat + 5 ≤ 32 → rd (4 + len.toNat) = 0xFA → (s.cfg.decodeLenCheck = .unchecked ∨ 3 ≤ len.toNat) →
      ∀ t : State,
        t = { s with
          receiver := { s.receiver with idx := 0 }
          sensor := { s.sensor with
            productType := rd 4, port := rd 5, firmware := rd 6, responseReady := true }
          result := some 1 } →
        exec (.rspGetProductInfo len) s = .next t ∧
        (rd 0 = 0x55 → rd 1 = 0xAA → rd 2 = 0x86 → rd 3 = len → exec .parse s = .next t)

/-- R184: a response whose CMD has no decoder fails although its framing is valid; PARSE then reports failure. -/
def Obligations.UnsupportedResponseFails : Prop :=
  ∀ (s : State) (cmd len : Byte), s.Live → cmd ∉ [0x81, 0x84, 0x85, 0x86] →
    ∀ t : State, t = { s with receiver := { s.receiver with idx := 0 }, result := some 0 } →
      exec (.rspUnsupported cmd len) s = .next t ∧
      (Memory.read s.receiver.buf 2 = cmd → exec .parse s = .next t)

/-- R174, R176, R185: a response row fails on an oversized LEN, on a missing terminator and, where DECODE_LEN_CHECK asks
for it, on a LEN below the extent of its fields. -/
def Obligations.ResponseRowFailure : Prop :=
  ∀ (s : State) (len : Byte), s.Live →
    ∀ t : State, t = { s with receiver := { s.receiver with idx := 0 }, result := some 0 } →
      (32 < len.toNat + 5 ∨ Memory.read s.receiver.buf (4 + len.toNat) ≠ 0xFA →
        ∀ i ∈ [Instr.rspMeasure len, .rspReset len, .rspGetFactoryDefaults len, .rspGetProductInfo len],
          exec i s = .next t) ∧
      (s.cfg.decodeLenCheck = .atLeast →
        (len.toNat < 3 → exec (.rspMeasure len) s = .next t ∧ exec (.rspGetProductInfo len) s = .next t) ∧
        (len.toNat < 7 → exec (.rspGetFactoryDefaults len) s = .next t))

/-- PARSE runs the response that stands in the buffer: where the first four bytes decode to a response row, PARSE does
exactly what the model lets that row do by itself. What PARSE does with such a header is R171 and R177; that the row has a
meaning by itself (PARSE from the length check on), and that it is stuck while halted, are the model's choices
(notes/assumptions/4.md, notes/assumptions/21.md). -/
def Obligations.ParseRunsBufferedResponse : Prop :=
  ∀ (s : State) (i : Instr),
    decodeResponse ((List.range 4).map (Memory.read s.receiver.buf)) = .ok i → exec .parse s = exec i s

/-- R186, R187: the result of PARSE and the sensor state after it depend only on the bytes of `buf` that it reads, not on
the write index, the frame-present flag or the arming, none of which it reads and of which it writes only the index. -/
def Obligations.ParseReadsOnlyItsBytes : Prop :=
  ∀ s s' : State, s.Live → s'.Live → s.cfg = s'.cfg → s.sensor = s'.sensor →
    (∀ a, a ≤ 10 ∨ a = 4 + (Memory.read s.receiver.buf 3).toNat ∧ a ≤ 31 →
      Memory.read s.receiver.buf a = Memory.read s'.receiver.buf a) →
    ∃ t t', exec .parse s = .next t ∧ exec .parse s' = .next t' ∧ t.sensor = t'.sensor ∧ t.result = t'.result ∧
      t'.receiver = { s'.receiver with idx := 0 }

/-- The round-trip law of R188: a Measure response received byte by byte, then FPOLL, PARSE, GRDY and GRDY, gives the
distance and the error code of the frame, with the response reported exactly once, whatever the payload bytes are. -/
def Obligations.MeasureRoundTrip : Prop :=
  ∀ (s : State) (hi lo err : Byte) (rest : List Event),
    s.Live → s.receiver.rxArmed = true → s.receiver.idx = 0 → s.receiver.buf.wf = true →
    ∀ before : State,
      before = { s with
        pending := rxEvents [0x55, 0xAA, 0x81, 0x03, hi, lo, err, 0xFA] ++
          [.host 0x21 s.env, .host 0x22 s.env, .host 0x48 s.env, .host 0x48 s.env] ++ rest } →
      results 12 before = List.replicate 8 none ++ [some 1, some 1, some 1, some 0] ∧
      ∃ t, run 12 before = .next t ∧ t.pending = rest ∧ t.sensor.distance = hi ++ lo ∧ t.sensor.errorCode = err ∧
        t.sensor.distanceFresh = true ∧ t.sensor.responseReady = false

/-! ### Session -/

/-- R200-R204: a send, and the command row it transmits, appends its five-byte frame and returns 0; where the transmit
fails it appends some first bytes of the frame and halts with TX_FAIL. That a command row runs by itself and that failed
sends are counted is the model's choice (notes/assumptions/4.md, notes/assumptions/3.md). -/
def Obligations.SendOutcome : Prop :=
  ∀ s : State, s.Live →
    ∀ p ∈ [(Instr.smeas, (0x81 : Byte)), (.cmdMeasure, 0x81), (.sinfo, 0x86), (.cmdGetProductInfo, 0x86),
        (.sdef, 0x85), (.cmdGetFactoryDefaults, 0x85), (.srst, 0x84), (.cmdReset, 0x84)],
      (s.env.txOk = true →
        exec p.1 s = .next { s with txOut := s.txOut ++ [0x55, 0xAA, p.2, 0x00, 0xFA], result := some 0 }) ∧
      (s.env.txOk = false →
        ∃ n ≤ 5, exec p.1 s = .next ({ s with
          txOut := s.txOut ++ [0x55, 0xAA, p.2, 0x00, 0xFA].take n, draws := s.draws + 1 }.haltEntry .txFail))

/-- R91, R205, R260: whatever the event, the transmit stream keeps all that was sent and grows by at most the first bytes
of one command frame with CMD 0x81, 0x84, 0x85 or 0x86; 0x82 and 0x83 are never sent. -/
def Obligations.OnlyCommandFramesSent : Prop :=
  ∀ s t : State, step s = .next t →
    ∃ cmd ∈ [(0x81 : Byte), 0x84, 0x85, 0x86], ∃ n,
      t.txOut = s.txOut ++ [0x55, 0xAA, cmd, 0x00, 0xFA].take n

/-- R211, R212, R213, R216: the plain accessors return their field, zero-extended, and change nothing. -/
def Obligations.PlainAccessors : Prop :=
  ∀ s : State, s.Live →
    exec .gerr s = .next { s with result := some (s.sensor.errorCode.setWidth 32) } ∧
    exec .gfw s = .next { s with result := some (s.sensor.firmware.setWidth 32) } ∧
    exec .gptype s = .next { s with result := some (s.sensor.productType.setWidth 32) } ∧
    exec .gxtalk s = .next { s with result := some (s.sensor.crosstalk.setWidth 32) }

/-- R210: GDIST returns the distance in the low 16 bits and `distanceFresh` in bit 16, clears only that flag, and keeps
the distance. -/
def Obligations.DistanceReadOnce : Prop :=
  ∀ s : State, s.Live →
    ∃ r : Word,
      exec .gdist s = .next { s with sensor := { s.sensor with distanceFresh := false }, result := some r } ∧
      r.toNat = s.sensor.distance.toNat + (if s.sensor.distanceFresh then 65536 else 0)

/-- R218: GRDY returns `responseReady` and clears it. -/
def Obligations.ReadyReadOnce : Prop :=
  ∀ s : State, s.Live →
    exec .grdy s = .next { s with
      sensor := { s.sensor with responseReady := false }, result := some (if s.sensor.responseReady then 1 else 0) }

/-- R214: GOFS returns the offset selected, or halts with BAD_OPERAND. -/
def Obligations.OffsetRead : Prop :=
  ∀ (j : Byte) (s : State), s.Live →
    (∀ v, [s.sensor.offset.o0, s.sensor.offset.o1, s.sensor.offset.o2, s.sensor.offset.o3][j.toNat]? = some v →
      exec (.gofs j) s = .next { s with result := some (v.setWidth 32) }) ∧
    (4 ≤ j.toNat → exec (.gofs j) s = .next (s.haltEntry .badOperand))

/-- R215: GPORT returns a legal code and halts with BAD_PORT on any other. -/
def Obligations.PortReadValidated : Prop :=
  ∀ s : State, s.Live →
    (s.sensor.port.toNat ≤ 2 → exec .gport s = .next { s with result := some (s.sensor.port.setWidth 32) }) ∧
    (2 < s.sensor.port.toNat → exec .gport s = .next (s.haltEntry .badPort))

/-- R217: GCAL returns a legal code and halts with BAD_CAL on any other. -/
def Obligations.CalibrationReadValidated : Prop :=
  ∀ s : State, s.Live →
    (s.sensor.calibration.toNat ≤ 3 →
      exec .gcal s = .next { s with result := some (s.sensor.calibration.setWidth 32) }) ∧
    (3 < s.sensor.calibration.toNat → exec .gcal s = .next (s.haltEntry .badCal))

/-- R66, R73: of two read-once reads with nothing between them, the second returns 0. -/
def Obligations.ReadOnceReadsClear : Prop :=
  ∀ (s : State) (i : Instr), s.Live →
    i ∈ [Instr.dbpush, .fpoll, .grdy] ∨ i = .dbrel ∧ s.cfg.hasReleaseEvent = true →
      ∃ t u, exec i s = .next t ∧ exec i t = .next u ∧ u.result = some 0

/-! ### Halts -/

/-- R85: a word whose code is unassigned halts with ILLEGAL_OP and changes nothing else, and so does the code 0x13 where
there is no release event. -/
def Obligations.UnassignedCodeHalts : Prop :=
  ∀ (s : State) (w : HostWord) (env : Env) (rest : List Event), s.Live →
    (opField w ∉ assignedOps ∨ opField w = 0x13 ∧ s.cfg.hasReleaseEvent = false →
      step { s with pending := .host w env :: rest } =
        .next ({ s with pending := rest, env := env }.haltEntry .illegalOp)) ∧
    ∀ op, exec (.illegal op) s = .next (s.haltEntry .illegalOp)

/-- R232: an instruction that halts a running block leaves `rxArmed` 0, a cause other than NONE and no result word, and
nothing of the timers, the debounce FSM, the sensor state or the parameters changed. It ranges over the command rows too,
which the model lets run by themselves (notes/assumptions/4.md). -/
def Obligations.HaltEntryEffect : Prop :=
  ∀ (i : Instr) (s t : State), s.Live → exec i s = .next t → t.halt.halted = true →
    t.receiver.rxArmed = false ∧ t.halt.cause ≠ .noCause ∧ t.result = none ∧
    t.timers = s.timers ∧ t.debounce = s.debounce ∧ t.sensor = s.sensor ∧ t.cfg = s.cfg

/-- R231: each halt cause has its code and is raised only by the instructions, and only on the conditions, the table
names. Two clauses say it in the model's terms: a command row raises TX_FAIL as the send that transmits it does, which is
the model's choice (notes/assumptions/4.md), and BAD_TIMER's `sel >= N_TIMERS` is stated on the number of timers the state
holds, which is N_TIMERS in every state with the invariant (notes/assumptions/14.md). -/
def Obligations.HaltCauseTable : Prop :=
  (HaltCause.noCause.code = 0x00 ∧ HaltCause.txFail.code = 0x01 ∧ HaltCause.rxRearmFail.code = 0x02 ∧
    HaltCause.badTimer.code = 0x03 ∧ HaltCause.badPort.code = 0x04 ∧ HaltCause.badCal.code = 0x05 ∧
    HaltCause.illegalOp.code = 0x06 ∧ HaltCause.badOperand.code = 0x07) ∧
  ∀ (i : Instr) (s t : State), s.Live → exec i s = .next t → t.halt.halted = true →
    match t.halt.cause with
    | .noCause => False
    | .txFail => s.env.txOk = false ∧ i ∈ [Instr.smeas, .sinfo, .sdef, .srst, .cmdMeasure, .cmdGetProductInfo,
        .cmdGetFactoryDefaults, .cmdReset]
    | .rxRearmFail => (∃ b, i = .rx b false) ∨ i = .rxarm ∧ s.env.armOk = false
    | .badTimer => ∃ k : Byte, s.timers.length ≤ k.toNat ∧ (i = .tread k ∨ ∃ arg, i = .tinit k arg ∨ i = .twrite k arg)
    | .badPort => i = .gport ∧ 2 < s.sensor.port.toNat
    | .badCal => i = .gcal ∧ 3 < s.sensor.calibration.toNat
    | .illegalOp => (∃ op, i = .illegal op) ∨ i = .dbrel ∧ s.cfg.hasReleaseEvent = false
    | .badOperand => ∃ j : Byte, i = .gofs j ∧ 4 ≤ j.toNat

/-- R233: while halted, a host operation has no step, a received byte is dropped with no change, the reset event resets,
and the end of the events is a fault. That `no step` and a run that ends halted are the fault `halted` is how the model
reads the rule (notes/assumptions/7.md), and that the wire-frame rows are stuck as well is the model's choice, no rule of
the spec (notes/assumptions/21.md). -/
def Obligations.HaltedIsStuck : Prop :=
  ∀ s : State, s.halt.halted = true →
    (∀ i : Instr, (∀ b ok, i ≠ .rx b ok) → exec i s = .fault (.halted s.halt.cause)) ∧
    (∀ b ok, exec (.rx b ok) s = .next s) ∧
    (∀ rest, s.pending = .reset :: rest → ∃ t, step s = .next t ∧ t.Live) ∧
    (s.pending = [] → step s = .fault (.halted s.halt.cause))

/-- R235, R261: only the reset event leaves the halted state; any other event that is a step changes nothing but the
event list. -/
def Obligations.OnlyResetLeavesHalt : Prop :=
  ∀ s t : State, s.halt.halted = true → step s = .next t →
    (∃ rest, s.pending = .reset :: rest) ∨ t = { s with pending := s.pending.tail, result := none }

/-! ### The whole machine -/

/-- R23: only the instructions that the table names set a flag, and only those it names clear it, the debounce flags on
the transition it names and `T[k].running` in the variant it names; every other instruction leaves the flag unchanged. The
response rows stand beside the PARSE that runs them, which is the model's choice (notes/assumptions/4.md). -/
def Obligations.FlagWriters : Prop :=
  ∀ (i : Instr) (s t : State), exec i s = .next t →
    (t.debounce.pushed = true → s.debounce.pushed = false →
      i = .dbupd ∧ s.debounce.dbState = .confirmingPress ∧ t.debounce.dbState = .pressed) ∧
    (t.debounce.pushed = false → s.debounce.pushed = true → i = .dbpush) ∧
    (t.debounce.pressing = true → s.debounce.pressing = false →
      i = .dbupd ∧ s.debounce.dbState = .confirmingPress ∧ t.debounce.dbState = .pressed) ∧
    (t.debounce.pressing = false → s.debounce.pressing = true →
      i = .dbupd ∧ s.debounce.dbState = .confirmingRelease ∧ t.debounce.dbState = .released) ∧
    (t.debounce.released = true → s.debounce.released = false →
      i = .dbupd ∧ s.cfg.hasReleaseEvent = true ∧ s.debounce.dbState = .confirmingRelease ∧
        t.debounce.dbState = .released) ∧
    (t.debounce.released = false → s.debounce.released = true → i = .dbrel) ∧
    (t.debounce.timer.running ≠ s.debounce.timer.running → i = .dbupd ∧ t.debounce.timer.running = true) ∧
    (t.timers ≠ s.timers → ∃ k, i = .tread k ∨ ∃ arg, i = .tinit k arg ∨ i = .twrite k arg) ∧
    t.timers.length = s.timers.length ∧
    (∀ (j : Nat) (x y : Timer), s.timers[j]? = some x → t.timers[j]? = some y →
      (y.running = true → x.running = false → ∃ k : Byte, k.toNat = j ∧
        (i = .tread k ∨
          s.cfg.timerVariant = .armOnInit ∧
            ∃ arg, i = .tinit k arg ∨ i = .twrite k arg ∧ s.cfg.writeIdleArms = true)) ∧
      (y.running = false → x.running = true → ∃ k : Byte, k.toNat = j ∧
        s.cfg.timerVariant = .armOnFirstRead ∧ ∃ arg, i = .tinit k arg ∨ i = .twrite k arg)) ∧
    (t.receiver.framePresent = true → s.receiver.framePresent = false → ∃ ok, i = .rx 0xFA ok) ∧
    (t.receiver.framePresent = false → s.receiver.framePresent = true → i = .fpoll) ∧
    (t.receiver.rxArmed = true → s.receiver.rxArmed = false → i = .rxarm ∧ s.env.armOk = true) ∧
    (t.receiver.rxArmed = false → s.receiver.rxArmed = true → s.halt.halted = false ∧ t.halt.halted = true) ∧
    (t.sensor.responseReady = true → s.sensor.responseReady = false → i = .parse ∨ ∃ len,
      i ∈ [Instr.rspMeasure len, .rspReset len, .rspGetFactoryDefaults len, .rspGetProductInfo len]) ∧
    (t.sensor.responseReady = false → s.sensor.responseReady = true → i = .grdy) ∧
    (t.sensor.distanceFresh = true → s.sensor.distanceFresh = false → i = .parse ∨ ∃ len, i = .rspMeasure len) ∧
    (t.sensor.distanceFresh = false → s.sensor.distanceFresh = true → i = .gdist) ∧
    (s.halt.halted = true → t.halt = s.halt)

/-- R32: the decoded fields of the sensor state are written only by PARSE, and the response rows that PARSE runs
(notes/assumptions/4.md). -/
def Obligations.SensorWrittenOnlyByParse : Prop :=
  ∀ (i : Instr) (s t : State), exec i s = .next t →
    t.sensor = { s.sensor with
      responseReady := t.sensor.responseReady, distanceFresh := t.sensor.distanceFresh } ∨
    i = .parse ∨ ∃ len,
      i ∈ [Instr.rspMeasure len, .rspReset len, .rspGetFactoryDefaults len, .rspGetProductInfo len]

/-- R7: `now`, `pin`, `txOk` and `armOk` are read only by the operations that name them; any other instruction does the
same whatever they are. The command rows read `txOk` as the sends do, which is the model's choice
(notes/assumptions/4.md). -/
def Obligations.InputsReadOnlyWhereNamed : Prop :=
  ∀ (i : Instr) (s t : State) (env : Env), exec i s = .next t →
    ((∀ k arg, i ≠ .tinit k arg ∧ i ≠ .tread k ∧ i ≠ .twrite k arg) → i ≠ .dbupd →
      exec i { s with env := { s.env with now := env.now } } = .next { t with env := { s.env with now := env.now } }) ∧
    (i ≠ .dbupd →
      exec i { s with env := { s.env with pin := env.pin } } = .next { t with env := { s.env with pin := env.pin } }) ∧
    (i ∉ [Instr.smeas, .sinfo, .sdef, .srst, .cmdMeasure, .cmdGetProductInfo, .cmdGetFactoryDefaults, .cmdReset] →
      exec i { s with env := { s.env with txOk := env.txOk } } =
        .next { t with env := { s.env with txOk := env.txOk } }) ∧
    (i ≠ .rxarm →
      exec i { s with env := { s.env with armOk := env.armOk } } =
        .next { t with env := { s.env with armOk := env.armOk } })

/-- The parameters of a machine never change, whatever the event (R8; the model carries them in its state,
notes/assumptions/1.md). -/
def Obligations.ParametersNeverChange : Prop := ∀ s t : State, step s = .next t → t.cfg = s.cfg

/-- From a state with the invariant that is not halted every event completes, and no state's step is a refusal: nothing
waits or spins (R118, R178, R234). -/
def Obligations.LiveStepCompletes : Prop :=
  (∀ s : State, s.Inv → s.Live → ∃ t, step s = .next t) ∧ ∀ (s : State) (r : Refusal), step s ≠ .refused r

/-! ### Reset and the invariant -/

/-- R260: the reset event gives every element its reset value and leaves what was sent. -/
def Obligations.ResetEventValues : Prop :=
  ∀ (s : State) (rest : List Event),
    ∃ t, step { s with pending := .reset :: rest } = .next t ∧
      t.timers = List.replicate s.cfg.nTimers { start := 0, duration := s.cfg.defaultDuration, running := false } ∧
      t.debounce.timer = { start := 0, duration := s.cfg.debounceMs, running := false } ∧
      t.debounce.dbState = .released ∧ t.debounce.pushed = false ∧ t.debounce.pressing = false ∧
      t.debounce.released = false ∧
      (∀ a, Memory.read t.receiver.buf a = 0x00) ∧ t.receiver.idx = 0 ∧ t.receiver.framePresent = false ∧
      t.receiver.rxArmed = false ∧
      t.sensor.distance = 0 ∧ t.sensor.errorCode = 0 ∧ t.sensor.firmware = 0 ∧ t.sensor.productType = 0 ∧
      t.sensor.offset = { o0 := 0, o1 := 0, o2 := 0, o3 := 0 } ∧ t.sensor.crosstalk = 0 ∧
      t.sensor.port = s.cfg.enumReset ∧ t.sensor.calibration = s.cfg.enumReset ∧
      t.sensor.responseReady = false ∧ t.sensor.distanceFresh = false ∧
      t.halt = { halted := false, cause := .noCause } ∧ t.txOut = s.txOut

/-- R8, R22: the values of the state right after reset, for the parameter values the spec uses. -/
def Obligations.ResetStateValues : Prop :=
  State.reset.timers = [{ start := 0, duration := 100, running := false }, { start := 0, duration := 100, running := false }] ∧
  State.reset.debounce.timer = { start := 0, duration := 40, running := false } ∧
  State.reset.debounce.dbState = .released ∧
  (∀ a, Memory.read State.reset.receiver.buf a = 0x00) ∧
  State.reset.receiver.idx = 0 ∧ State.reset.receiver.rxArmed = false ∧
  State.reset.sensor.port = 0xFF ∧ State.reset.sensor.calibration = 0xFF ∧ State.reset.sensor.distance = 0 ∧
  State.reset.halt.halted = false ∧ State.reset.halt.cause.code = 0x00

/-- The invariant of R40 holds after reset, for every choice of parameters that R9 admits. -/
def Obligations.ResetHasInvariant : Prop := State.reset.Inv ∧ ∀ c : Config, c.Ok → (State.resetWith c).Inv

/-- Every step keeps the invariant of R40. -/
def Obligations.StepKeepsInvariant : Prop := ∀ s t : State, s.Inv → step s = .next t → t.Inv
end

