-- ==== Sys2Proof/Laws/Decode.lean ====
section
/-!
SUPPORT. The fields of an assembled host word and of a receive event.
-/

namespace Sys2Proof

@[simp] theorem opField_hostWord (op sel : Byte) (arg : Word) : opField (hostWord op sel arg) = op := by
  unfold opField hostWord
  refine BitVec.eq_of_getLsbD_eq fun i hi => ?_
  simp only [BitVec.getLsbD_extractLsb', BitVec.getLsbD_append, hi, decide_true, Bool.true_and, Nat.zero_add, if_true]
  rw [if_pos (by omega)]

@[simp] theorem selField_hostWord (op sel : Byte) (arg : Word) : selField (hostWord op sel arg) = sel := by
  unfold selField hostWord
  refine BitVec.eq_of_getLsbD_eq fun i hi => ?_
  simp only [BitVec.getLsbD_extractLsb', BitVec.getLsbD_append, hi, decide_true, Bool.true_and]
  rw [if_pos (by omega), if_neg (by omega)]
  simp

@[simp] theorem argField_hostWord (op sel : Byte) (arg : Word) : argField (hostWord op sel arg) = arg := by
  unfold argField hostWord
  refine BitVec.eq_of_getLsbD_eq fun i hi => ?_
  simp only [BitVec.getLsbD_extractLsb', BitVec.getLsbD_append, hi, decide_true, Bool.true_and]
  rw [if_neg (by omega)]
  simp

/-- A host word is what its three fields assemble to. -/
theorem hostWord_fields (w : HostWord) : hostWord (opField w) (selField w) (argField w) = w := by
  unfold opField selField argField hostWord
  refine BitVec.eq_of_getLsbD_eq fun i hi => ?_
  simp only [BitVec.getLsbD_extractLsb', BitVec.getLsbD_append, Nat.zero_add]
  by_cases h1 : i < 16
  · by_cases h2 : i < 8
    · simp [h1, h2]
    · simp [h1, h2, show 8 + (i - 8) = i by omega, show i - 8 < 8 by omega]
  · simp [h1, show 16 + (i - 16) = i by omega, show i - 16 < 32 by omega]

/-- The byte of an assembled receive event. -/
@[simp] theorem rxCode_byte (b : Byte) (ok : Bool) : (BitVec.ofBool ok ++ b).extractLsb' 0 8 = b := by
  refine BitVec.eq_of_getLsbD_eq fun i hi => ?_
  simp only [BitVec.getLsbD_extractLsb', BitVec.getLsbD_append, hi, decide_true, Bool.true_and, Nat.zero_add, if_true]

/-- The re-arm answer of an assembled receive event. -/
theorem rxCode_rearmOk (b : Byte) (ok : Bool) : (BitVec.ofBool ok ++ b).getLsbD 8 = ok := by
  rw [BitVec.getLsbD_append, if_neg (by omega)]
  cases ok <;> rfl

/-- The same as simp writes it. -/
@[simp] theorem rxCode_bit8 (b : Byte) (ok : Bool) : (BitVec.ofBool ok ++ b)[8] = ok := rxCode_rearmOk b ok

/-- Where the length check passes, the rows a response header selects are its CMD's. -/
theorem decodeResponse_ok {h1 h2 cmd len : Byte} {rest : List Byte} {i : Instr}
    (h : decodeResponse (h1 :: h2 :: cmd :: len :: rest) = .ok i) :
    h1 = hdr1 ∧ h2 = hdr2 ∧ LenOk len ∧ i = responseOf cmd len := by
  simp only [decodeResponse] at h
  by_cases e1 : h1 = hdr1
  · by_cases e2 : h2 = hdr2
    · rw [if_neg (not_not.2 e1), if_neg (not_not.2 e2)] at h
      by_cases e3 : LenOk len
      · rw [if_pos e3] at h
        cases h
        exact ⟨e1, e2, e3, rfl⟩
      · rw [if_neg e3] at h
        cases h
    · rw [if_neg (not_not.2 e1), if_pos e2] at h
      cases h
  · rw [if_pos e1] at h
    cases h

end Sys2Proof
end

