-- ==== Sys2Proof/Laws/Memory.lean ====
section
/-!
SUPPORT. The frame buffer's laws: a read after a write to the same index gives the byte written, a write leaves every
other index alone, every operation keeps the canonical form, and equal contents are equal buffers.
-/

namespace Sys2Proof.Machine

@[simp] theorem Memory.read_nil (a : Nat) : Memory.read [] a = 0#8 := rfl

theorem Memory.read_cons (a a' : Nat) (b : Byte) (m : Memory) :
    Memory.read ((a', b) :: m) a = if a = a' then b else Memory.read m a := rfl

/-- A listed byte and the canonical form of the rest, from a buffer in canonical form. -/
theorem Memory.wfFrom_cons {lo a : Nat} {b : Byte} {m : Memory} :
    Memory.wfFrom lo ((a, b) :: m) = true ↔ lo ≤ a ∧ a < frameMax ∧ b ≠ 0#8 ∧ Memory.wfFrom (a + 1) m = true := by
  simp [Memory.wfFrom, and_assoc]

/-- A buffer in canonical form from `lo` on lists nothing below `lo`. -/
theorem Memory.read_eq_zero_of_lt {m : Memory} {lo a : Nat} (h : Memory.wfFrom lo m = true) (ha : a < lo) :
    Memory.read m a = 0#8 := by
  induction m generalizing lo with
  | nil => rfl
  | cons c m ih =>
    obtain ⟨hlo, -, -, hm⟩ := Memory.wfFrom_cons.1 h
    rw [Memory.read_cons, if_neg (by omega)]
    exact ih hm (by omega)

/-- A smaller start admits the same canonical form. -/
theorem Memory.wfFrom_mono {m : Memory} {lo lo' : Nat} (h : Memory.wfFrom lo m = true) (hl : lo' ≤ lo) :
    Memory.wfFrom lo' m = true := by
  cases m with
  | nil => rfl
  | cons c m =>
    obtain ⟨h1, h2, h3, h4⟩ := Memory.wfFrom_cons.1 h
    exact Memory.wfFrom_cons.2 ⟨by omega, h2, h3, h4⟩

/-- A byte put in front is read at its index, where the rest lists nothing there; other indices read as before. -/
theorem Memory.read_put (i a : Nat) (b : Byte) {m : Memory} (h : Memory.read m i = 0#8) :
    Memory.read (Memory.put i b m) a = if a = i then b else Memory.read m a := by
  unfold Memory.put
  by_cases hb : b = 0#8
  · by_cases ha : a = i
    · subst ha; simp [hb, h]
    · simp [hb, ha]
  · rw [if_neg hb, Memory.read_cons]

/-- A byte put in front leaves every other index alone. -/
theorem Memory.read_put_other (i a : Nat) (b : Byte) (m : Memory) (h : a ≠ i) :
    Memory.read (Memory.put i b m) a = Memory.read m a := by
  unfold Memory.put
  split
  · rfl
  · rw [Memory.read_cons, if_neg h]

theorem Memory.wfFrom_put {i : Nat} {lo : Nat} (b : Byte) {m : Memory} (h : Memory.wfFrom (i + 1) m = true)
    (hlo : lo ≤ i) (hi : i < frameMax) : Memory.wfFrom lo (Memory.put i b m) = true := by
  unfold Memory.put
  split
  · exact Memory.wfFrom_mono h (by omega)
  · rename_i hb; exact Memory.wfFrom_cons.2 ⟨hlo, hi, hb, h⟩

/-- A write leaves every other index alone. -/
theorem Memory.read_write_other (m : Memory) (i a : Nat) (b : Byte) (h : a ≠ i) :
    Memory.read (Memory.write m i b) a = Memory.read m a := by
  induction m with
  | nil => exact Memory.read_put_other i a b [] h
  | cons c m ih =>
    unfold Memory.write
    split
    · exact Memory.read_put_other i a b _ h
    · split
      · rename_i h2
        rw [Memory.read_put_other i a b m h, Memory.read_cons, if_neg (by omega)]
      · rw [Memory.read_cons, Memory.read_cons, ih]

/-- A read of the index written gives the byte written. -/
theorem Memory.read_write_same {m : Memory} {lo : Nat} (i : Nat) (b : Byte) (h : Memory.wfFrom lo m = true) :
    Memory.read (Memory.write m i b) i = b := by
  induction m generalizing lo with
  | nil => rw [Memory.write, Memory.read_put _ _ _ rfl, if_pos rfl]
  | cons c m ih =>
    obtain ⟨-, -, -, hm⟩ := Memory.wfFrom_cons.1 h
    unfold Memory.write
    split
    · rw [Memory.read_put, if_pos rfl]
      rw [Memory.read_cons, if_neg (by omega)]
      exact Memory.read_eq_zero_of_lt hm (by omega)
    · split
      · rw [Memory.read_put _ _ _ (Memory.read_eq_zero_of_lt hm (by omega)), if_pos rfl]
      · rename_i h2
        rw [Memory.read_cons, if_neg h2]
        exact ih hm

/-- A write inside the buffer keeps the canonical form. -/
theorem Memory.wfFrom_write {m : Memory} {lo : Nat} (i : Nat) (b : Byte) (h : Memory.wfFrom lo m = true)
    (hlo : lo ≤ i) (hi : i < frameMax) : Memory.wfFrom lo (Memory.write m i b) = true := by
  induction m generalizing lo with
  | nil => exact Memory.wfFrom_put b rfl hlo hi
  | cons c m ih =>
    obtain ⟨h1, h2, h3, hm⟩ := Memory.wfFrom_cons.1 h
    unfold Memory.write
    split
    · exact Memory.wfFrom_put b (Memory.wfFrom_cons.2 ⟨by omega, h2, h3, hm⟩) hlo hi
    · split
      · rename_i he; exact Memory.wfFrom_put b (Memory.wfFrom_mono hm (by omega)) hlo hi
      · exact Memory.wfFrom_cons.2 ⟨h1, h2, h3, ih hm (by omega)⟩

/-- The buffer that holds given bytes from `lo` on has the canonical form. -/
theorem Memory.wfFrom_ofBytes (bytes : List Byte) {lo : Nat} (h : lo + bytes.length ≤ frameMax) :
    Memory.wfFrom lo (Memory.ofBytes lo bytes) = true := by
  induction bytes generalizing lo with
  | nil => rfl
  | cons b bs ih =>
    rw [List.length_cons] at h
    exact Memory.wfFrom_put b (ih (by omega)) le_rfl (by omega)

/-- The bytes of a buffer that holds given bytes from `lo` on. -/
theorem Memory.read_ofBytes (bytes : List Byte) {lo : Nat} (h : lo + bytes.length ≤ frameMax) (k : Nat) :
    Memory.read (Memory.ofBytes lo bytes) (lo + k) = bytes.getD k 0#8 := by
  induction bytes generalizing lo k with
  | nil => simp [Memory.ofBytes]
  | cons b bs ih =>
    rw [List.length_cons] at h
    have hz : Memory.read (Memory.ofBytes (lo + 1) bs) lo = 0#8 :=
      Memory.read_eq_zero_of_lt (Memory.wfFrom_ofBytes bs (by omega)) (by omega)
    rw [Memory.ofBytes, Memory.read_put _ _ _ hz]
    cases k with
    | zero => simp
    | succ k =>
      rw [if_neg (by omega), show lo + (k + 1) = lo + 1 + k by omega, ih (by omega)]
      simp

/-- `MemWrite` keeps the canonical form. -/
theorem Receiver.memWrite_wf (r : Receiver) (i : Fin frameMax) (b : Byte) (h : r.buf.wf = true) :
    (r.memWrite i b).buf.wf = true :=
  Memory.wfFrom_write i.val b h (Nat.zero_le _) i.isLt

/-- `MemRead` of the index written. -/
theorem Receiver.memRead_memWrite_same (r : Receiver) (i : Fin frameMax) (b : Byte) (h : r.buf.wf = true) :
    (r.memWrite i b).memRead i = b :=
  Memory.read_write_same i.val b h

/-- `MemRead` of another index. -/
theorem Receiver.memRead_memWrite_other (r : Receiver) (i j : Fin frameMax) (b : Byte) (h : j ≠ i) :
    (r.memWrite i b).memRead j = r.memRead j :=
  Memory.read_write_other r.buf i.val j.val b fun e => h (Fin.ext e)

/-- Two buffers in canonical form that read alike everywhere are equal. -/
theorem Memory.ext_of_read {m n : Memory} {lo lo' : Nat} (hm : Memory.wfFrom lo m = true)
    (hn : Memory.wfFrom lo' n = true) (h : ∀ a, Memory.read m a = Memory.read n a) : m = n := by
  induction m generalizing lo lo' n with
  | nil =>
    cases n with
    | nil => rfl
    | cons c n =>
      have hb := (Memory.wfFrom_cons.1 hn).2.2.1
      have := h c.1
      rw [Memory.read_cons, if_pos rfl] at this
      exact absurd this.symm hb
  | cons c m ih =>
    obtain ⟨a, b⟩ := c
    obtain ⟨-, -, hb, hm'⟩ := Memory.wfFrom_cons.1 hm
    cases n with
    | nil =>
      have := h a
      rw [Memory.read_cons, if_pos rfl] at this
      exact absurd this hb
    | cons c' n =>
      obtain ⟨a', b'⟩ := c'
      obtain ⟨-, -, hb', hn'⟩ := Memory.wfFrom_cons.1 hn
      have haa : a = a' := by
        rcases Nat.lt_trichotomy a a' with hlt | heq | hgt
        · have := h a
          rw [Memory.read_cons, if_pos rfl, Memory.read_cons, if_neg (by omega),
            Memory.read_eq_zero_of_lt hn' (by omega)] at this
          exact absurd this hb
        · exact heq
        · have := h a'
          rw [Memory.read_cons, if_neg (by omega), Memory.read_cons, if_pos rfl,
            Memory.read_eq_zero_of_lt hm' (by omega)] at this
          exact absurd this.symm hb'
      subst haa
      have hbb : b = b' := by simpa [Memory.read_cons] using h a
      subst hbb
      have hmn : m = n := ih hm' hn' fun x => by
        by_cases hx : x = a
        · rw [hx, Memory.read_eq_zero_of_lt hm' (by omega), Memory.read_eq_zero_of_lt hn' (by omega)]
        · simpa [Memory.read_cons, hx] using h x
      rw [hmn]

end Sys2Proof.Machine
end

