-- ==== Sys2Proof/Laws/State.lean ====
section
/-!
SUPPORT. The fields of a state after each named update: one lemma per field, all true by unfolding.
-/

namespace Sys2Proof.Machine

/-! ### `State.haltEntry` -/

@[simp] theorem State.haltEntry_cfg (s : State) (c : HaltCause) : (s.haltEntry c).cfg = s.cfg := rfl
@[simp] theorem State.haltEntry_timers (s : State) (c : HaltCause) : (s.haltEntry c).timers = s.timers := rfl
@[simp] theorem State.haltEntry_debounce (s : State) (c : HaltCause) : (s.haltEntry c).debounce = s.debounce := rfl
@[simp] theorem State.haltEntry_receiver (s : State) (c : HaltCause) : (s.haltEntry c).receiver = { s.receiver with rxArmed := false } := rfl
@[simp] theorem State.haltEntry_sensor (s : State) (c : HaltCause) : (s.haltEntry c).sensor = s.sensor := rfl
@[simp] theorem State.haltEntry_halt (s : State) (c : HaltCause) : (s.haltEntry c).halt = { halted := true, cause := c } := rfl
@[simp] theorem State.haltEntry_env (s : State) (c : HaltCause) : (s.haltEntry c).env = s.env := rfl
@[simp] theorem State.haltEntry_pending (s : State) (c : HaltCause) : (s.haltEntry c).pending = s.pending := rfl
@[simp] theorem State.haltEntry_result (s : State) (c : HaltCause) : (s.haltEntry c).result = none := rfl
@[simp] theorem State.haltEntry_txOut (s : State) (c : HaltCause) : (s.haltEntry c).txOut = s.txOut := rfl
@[simp] theorem State.haltEntry_draws (s : State) (c : HaltCause) : (s.haltEntry c).draws = s.draws := rfl

/-! ### `State.emit` -/

@[simp] theorem State.emit_cfg (s : State) (bs : List Byte) : (s.emit bs).cfg = s.cfg := rfl
@[simp] theorem State.emit_timers (s : State) (bs : List Byte) : (s.emit bs).timers = s.timers := rfl
@[simp] theorem State.emit_debounce (s : State) (bs : List Byte) : (s.emit bs).debounce = s.debounce := rfl
@[simp] theorem State.emit_receiver (s : State) (bs : List Byte) : (s.emit bs).receiver = s.receiver := rfl
@[simp] theorem State.emit_sensor (s : State) (bs : List Byte) : (s.emit bs).sensor = s.sensor := rfl
@[simp] theorem State.emit_halt (s : State) (bs : List Byte) : (s.emit bs).halt = s.halt := rfl
@[simp] theorem State.emit_env (s : State) (bs : List Byte) : (s.emit bs).env = s.env := rfl
@[simp] theorem State.emit_pending (s : State) (bs : List Byte) : (s.emit bs).pending = s.pending := rfl
@[simp] theorem State.emit_result (s : State) (bs : List Byte) : (s.emit bs).result = s.result := rfl
@[simp] theorem State.emit_txOut (s : State) (bs : List Byte) : (s.emit bs).txOut = s.txOut ++ bs := rfl
@[simp] theorem State.emit_draws (s : State) (bs : List Byte) : (s.emit bs).draws = s.draws := rfl

/-! ### `State.resetEvent` -/

@[simp] theorem State.resetEvent_cfg (s : State) : (s.resetEvent).cfg = s.cfg := rfl
@[simp] theorem State.resetEvent_timers (s : State) : (s.resetEvent).timers = (State.resetWith s.cfg).timers := rfl
@[simp] theorem State.resetEvent_debounce (s : State) : (s.resetEvent).debounce = (State.resetWith s.cfg).debounce := rfl
@[simp] theorem State.resetEvent_receiver (s : State) : (s.resetEvent).receiver = (State.resetWith s.cfg).receiver := rfl
@[simp] theorem State.resetEvent_sensor (s : State) : (s.resetEvent).sensor = (State.resetWith s.cfg).sensor := rfl
@[simp] theorem State.resetEvent_halt (s : State) : (s.resetEvent).halt = (State.resetWith s.cfg).halt := rfl
@[simp] theorem State.resetEvent_env (s : State) : (s.resetEvent).env = s.env := rfl
@[simp] theorem State.resetEvent_pending (s : State) : (s.resetEvent).pending = s.pending := rfl
@[simp] theorem State.resetEvent_result (s : State) : (s.resetEvent).result = none := rfl
@[simp] theorem State.resetEvent_txOut (s : State) : (s.resetEvent).txOut = s.txOut := rfl
@[simp] theorem State.resetEvent_draws (s : State) : (s.resetEvent).draws = s.draws := rfl

/-! ### The reset state of given parameters -/

@[simp] theorem State.resetWith_cfg (c : Config) : (State.resetWith c).cfg = c := rfl
@[simp] theorem State.resetWith_timers (c : Config) : (State.resetWith c).timers = List.replicate c.nTimers { start := 0, duration := c.defaultDuration, running := false } := rfl
@[simp] theorem State.resetWith_halt (c : Config) : (State.resetWith c).halt = { halted := false, cause := .noCause } := rfl
@[simp] theorem State.resetWith_pending (c : Config) : (State.resetWith c).pending = [] := rfl
@[simp] theorem State.resetWith_result (c : Config) : (State.resetWith c).result = none := rfl
@[simp] theorem State.resetWith_txOut (c : Config) : (State.resetWith c).txOut = [] := rfl
@[simp] theorem State.resetWith_draws (c : Config) : (State.resetWith c).draws = 0 := rfl
@[simp] theorem State.resetWith_receiver (c : Config) : (State.resetWith c).receiver = { buf := [], idx := 0, framePresent := false, rxArmed := false } := rfl

/-! ### Updates of the components -/

@[simp] theorem Receiver.memWrite_buf (r : Receiver) (i : Fin frameMax) (b : Byte) : (r.memWrite i b).buf = r.buf.write i.val b := rfl
@[simp] theorem Receiver.memWrite_idx (r : Receiver) (i : Fin frameMax) (b : Byte) : (r.memWrite i b).idx = r.idx := rfl
@[simp] theorem Receiver.memWrite_framePresent (r : Receiver) (i : Fin frameMax) (b : Byte) : (r.memWrite i b).framePresent = r.framePresent := rfl
@[simp] theorem Receiver.memWrite_rxArmed (r : Receiver) (i : Fin frameMax) (b : Byte) : (r.memWrite i b).rxArmed = r.rxArmed := rfl

@[simp] theorem Receiver.takeFramePresent_fst_buf (r : Receiver) : (r.takeFramePresent.1).buf = r.buf := rfl
@[simp] theorem Receiver.takeFramePresent_fst_idx (r : Receiver) : (r.takeFramePresent.1).idx = r.idx := rfl
@[simp] theorem Receiver.takeFramePresent_fst_framePresent (r : Receiver) : (r.takeFramePresent.1).framePresent = false := rfl
@[simp] theorem Receiver.takeFramePresent_fst_rxArmed (r : Receiver) : (r.takeFramePresent.1).rxArmed = r.rxArmed := rfl

@[simp] theorem Debounce.takePushed_fst_timer (d : Debounce) : (d.takePushed.1).timer = d.timer := rfl
@[simp] theorem Debounce.takePushed_fst_dbState (d : Debounce) : (d.takePushed.1).dbState = d.dbState := rfl
@[simp] theorem Debounce.takePushed_fst_pushed (d : Debounce) : (d.takePushed.1).pushed = false := rfl
@[simp] theorem Debounce.takePushed_fst_pressing (d : Debounce) : (d.takePushed.1).pressing = d.pressing := rfl
@[simp] theorem Debounce.takePushed_fst_released (d : Debounce) : (d.takePushed.1).released = d.released := rfl

@[simp] theorem Debounce.takeReleased_fst_timer (d : Debounce) : (d.takeReleased.1).timer = d.timer := rfl
@[simp] theorem Debounce.takeReleased_fst_dbState (d : Debounce) : (d.takeReleased.1).dbState = d.dbState := rfl
@[simp] theorem Debounce.takeReleased_fst_pushed (d : Debounce) : (d.takeReleased.1).pushed = d.pushed := rfl
@[simp] theorem Debounce.takeReleased_fst_pressing (d : Debounce) : (d.takeReleased.1).pressing = d.pressing := rfl
@[simp] theorem Debounce.takeReleased_fst_released (d : Debounce) : (d.takeReleased.1).released = false := rfl

@[simp] theorem Debounce.confirmPress_timer (d : Debounce) : (d.confirmPress).timer = d.timer := rfl
@[simp] theorem Debounce.confirmPress_dbState (d : Debounce) : (d.confirmPress).dbState = .pressed := rfl
@[simp] theorem Debounce.confirmPress_pushed (d : Debounce) : (d.confirmPress).pushed = true := rfl
@[simp] theorem Debounce.confirmPress_pressing (d : Debounce) : (d.confirmPress).pressing = true := rfl
@[simp] theorem Debounce.confirmPress_released (d : Debounce) : (d.confirmPress).released = d.released := rfl

@[simp] theorem Debounce.confirmRelease_timer (d : Debounce) (e : Bool) : (d.confirmRelease e).timer = d.timer := rfl
@[simp] theorem Debounce.confirmRelease_dbState (d : Debounce) (e : Bool) : (d.confirmRelease e).dbState = .released := rfl
@[simp] theorem Debounce.confirmRelease_pushed (d : Debounce) (e : Bool) : (d.confirmRelease e).pushed = d.pushed := rfl
@[simp] theorem Debounce.confirmRelease_pressing (d : Debounce) (e : Bool) : (d.confirmRelease e).pressing = false := rfl
@[simp] theorem Debounce.confirmRelease_released (d : Debounce) (e : Bool) : (d.confirmRelease e).released = (d.released || e) := rfl

@[simp] theorem Sensor.takeResponseReady_fst_distance (x : Sensor) : (x.takeResponseReady.1).distance = x.distance := rfl
@[simp] theorem Sensor.takeResponseReady_fst_errorCode (x : Sensor) : (x.takeResponseReady.1).errorCode = x.errorCode := rfl
@[simp] theorem Sensor.takeResponseReady_fst_port (x : Sensor) : (x.takeResponseReady.1).port = x.port := rfl
@[simp] theorem Sensor.takeResponseReady_fst_firmware (x : Sensor) : (x.takeResponseReady.1).firmware = x.firmware := rfl
@[simp] theorem Sensor.takeResponseReady_fst_calibration (x : Sensor) : (x.takeResponseReady.1).calibration = x.calibration := rfl
@[simp] theorem Sensor.takeResponseReady_fst_productType (x : Sensor) : (x.takeResponseReady.1).productType = x.productType := rfl
@[simp] theorem Sensor.takeResponseReady_fst_offset (x : Sensor) : (x.takeResponseReady.1).offset = x.offset := rfl
@[simp] theorem Sensor.takeResponseReady_fst_crosstalk (x : Sensor) : (x.takeResponseReady.1).crosstalk = x.crosstalk := rfl
@[simp] theorem Sensor.takeResponseReady_fst_responseReady (x : Sensor) : (x.takeResponseReady.1).responseReady = false := rfl
@[simp] theorem Sensor.takeResponseReady_fst_distanceFresh (x : Sensor) : (x.takeResponseReady.1).distanceFresh = x.distanceFresh := rfl

@[simp] theorem Sensor.takeDistanceFresh_fst_distance (x : Sensor) : (x.takeDistanceFresh.1).distance = x.distance := rfl
@[simp] theorem Sensor.takeDistanceFresh_fst_errorCode (x : Sensor) : (x.takeDistanceFresh.1).errorCode = x.errorCode := rfl
@[simp] theorem Sensor.takeDistanceFresh_fst_port (x : Sensor) : (x.takeDistanceFresh.1).port = x.port := rfl
@[simp] theorem Sensor.takeDistanceFresh_fst_firmware (x : Sensor) : (x.takeDistanceFresh.1).firmware = x.firmware := rfl
@[simp] theorem Sensor.takeDistanceFresh_fst_calibration (x : Sensor) : (x.takeDistanceFresh.1).calibration = x.calibration := rfl
@[simp] theorem Sensor.takeDistanceFresh_fst_productType (x : Sensor) : (x.takeDistanceFresh.1).productType = x.productType := rfl
@[simp] theorem Sensor.takeDistanceFresh_fst_offset (x : Sensor) : (x.takeDistanceFresh.1).offset = x.offset := rfl
@[simp] theorem Sensor.takeDistanceFresh_fst_crosstalk (x : Sensor) : (x.takeDistanceFresh.1).crosstalk = x.crosstalk := rfl
@[simp] theorem Sensor.takeDistanceFresh_fst_responseReady (x : Sensor) : (x.takeDistanceFresh.1).responseReady = x.responseReady := rfl
@[simp] theorem Sensor.takeDistanceFresh_fst_distanceFresh (x : Sensor) : (x.takeDistanceFresh.1).distanceFresh = false := rfl

@[simp] theorem Debounce.takePushed_snd (d : Debounce) : d.takePushed.2 = d.pushed := rfl
@[simp] theorem Debounce.takeReleased_snd (d : Debounce) : d.takeReleased.2 = d.released := rfl
@[simp] theorem Receiver.takeFramePresent_snd (r : Receiver) : r.takeFramePresent.2 = r.framePresent := rfl
@[simp] theorem Sensor.takeResponseReady_snd (x : Sensor) : x.takeResponseReady.2 = x.responseReady := rfl
@[simp] theorem Sensor.takeDistanceFresh_snd (x : Sensor) : x.takeDistanceFresh.2 = x.distanceFresh := rfl

end Sys2Proof.Machine
end

