-- ==== Sys2Proof/Laws/Ops.lean ====
section
/-!
SUPPORT. What each shared operation can do, said once: if it answers a next state, which state that is.
-/

namespace Sys2Proof.Machine

/-! ### Results, halts and the guard of the halted state -/

theorem hostOperation_live {s : State} (h : s.halt.halted = false) (effect : Result) :
    hostOperation s effect = effect := by
  rw [hostOperation, h]; rfl

theorem hostOperation_halted {s : State} (h : s.halt.halted = true) (effect : Result) :
    hostOperation s effect = .fault (.halted s.halt.cause) := by
  rw [hostOperation, h]; rfl

/-- A host operation that goes on ran on a block that was not halted, and did its effect. -/
theorem hostOperation_next {s t : State} {effect : Result} (h : hostOperation s effect = .next t) :
    s.halt.halted = false ∧ effect = .next t := by
  unfold hostOperation at h
  split at h
  · cases h
  · rename_i hl; exact ⟨by simpa using hl, h⟩

theorem State.answer_next {s t : State} {v : Word} (h : s.answer v = .next t) : t = { s with result := some v } := by
  cases h; rfl

theorem State.raiseHalt_next {s t : State} {c : HaltCause} (h : s.raiseHalt c = .next t) : t = s.haltEntry c := by
  cases h; rfl

/-! ### Timers -/

/-- A timer operation that goes on halted with BAD_TIMER, or did its effect on the instance selected. -/
theorem State.onTimer_next {s t : State} {k : Byte} {f : Timer → Timer × Word} (h : s.onTimer k f = .next t) :
    (s.timers[k.toNat]? = none ∧ t = s.haltEntry .badTimer) ∨
    ∃ x, s.timers[k.toNat]? = some x ∧
      t = { s with timers := s.timers.set k.toNat (f x).1, result := some (f x).2 } := by
  unfold State.onTimer at h
  split at h
  · rename_i hk; exact .inl ⟨hk, State.raiseHalt_next h⟩
  · rename_i x hk; exact .inr ⟨x, hk, State.answer_next h⟩

theorem State.onTimer_some {s : State} {k : Byte} {x : Timer} (f : Timer → Timer × Word)
    (h : s.timers[k.toNat]? = some x) :
    s.onTimer k f = .next { s with timers := s.timers.set k.toNat (f x).1, result := some (f x).2 } := by
  rw [State.onTimer, h]; rfl

theorem State.onTimer_none {s : State} {k : Byte} (f : Timer → Timer × Word) (h : s.timers[k.toNat]? = none) :
    s.onTimer k f = .next (s.haltEntry .badTimer) := by
  rw [State.onTimer, h]; rfl

/-- The three cases of a timer read. -/
theorem timerRead_cases (w : Nat) (x : Timer) (now : Tick) :
    (x.running = false ∧ timerRead w x now = ({ x with start := now, running := true }, false)) ∨
    (x.running = true ∧ x.duration ≤ elapsed w x.start now ∧ timerRead w x now = ({ x with start := now }, true)) ∨
    (x.running = true ∧ ¬ x.duration ≤ elapsed w x.start now ∧ timerRead w x now = (x, false)) := by
  unfold timerRead
  by_cases hr : x.running = true
  · by_cases he : x.duration ≤ elapsed w x.start now
    · exact .inr (.inl ⟨hr, he, by rw [if_pos hr, if_pos he]⟩)
    · exact .inr (.inr ⟨hr, he, by rw [if_pos hr, if_neg he]⟩)
  · exact .inl ⟨by simpa using hr, by rw [if_neg hr]⟩

/-- A timer read leaves the duration, and the timer running. -/
@[simp] theorem timerRead_duration (w : Nat) (x : Timer) (now : Tick) : (timerRead w x now).1.duration = x.duration := by
  rcases timerRead_cases w x now with ⟨_, h⟩ | ⟨_, _, h⟩ | ⟨_, _, h⟩ <;> rw [h]

@[simp] theorem timerRead_running (w : Nat) (x : Timer) (now : Tick) : (timerRead w x now).1.running = true := by
  rcases timerRead_cases w x now with ⟨_, h⟩ | ⟨hr, _, h⟩ | ⟨hr, _, h⟩ <;> rw [h] <;> simp [hr]

/-- A timer read leaves the start tick or makes it the tick of the read. -/
theorem timerRead_start (w : Nat) (x : Timer) (now : Tick) :
    (timerRead w x now).1.start = x.start ∨ (timerRead w x now).1.start = now := by
  rcases timerRead_cases w x now with ⟨_, h⟩ | ⟨_, _, h⟩ | ⟨_, _, h⟩ <;> rw [h] <;> simp

theorem toNat_lowBits (w : Nat) (x : Tick) (hw : w ≤ 32) : (lowBits w x).toNat = x.toNat % 2 ^ w := by
  unfold lowBits
  rw [BitVec.toNat_setWidth, BitVec.toNat_setWidth]
  exact Nat.mod_eq_of_lt (lt_of_lt_of_le (Nat.mod_lt _ (by positivity)) (Nat.pow_le_pow_right (by norm_num) hw))

/-! ### Sending -/

/-- A send that goes on emitted the whole frame, or some first bytes of it and halted with TX_FAIL. -/
theorem State.sendFrame_next {s t : State} {frame : List Byte} (h : s.sendFrame frame = .next t) :
    (s.env.txOk = true ∧ t = { s with txOut := s.txOut ++ frame, result := some 0 }) ∨
    (s.env.txOk = false ∧
      t = { s with
            txOut := s.txOut ++ frame.take (Config.sentBeforeFailure s.draws).val
            draws := s.draws + 1 }.haltEntry .txFail) := by
  unfold State.sendFrame at h
  split at h
  · rename_i hk; exact .inl ⟨hk, State.answer_next h⟩
  · rename_i hk; exact .inr ⟨by simpa using hk, State.raiseHalt_next h⟩

/-! ### The receive event -/

@[simp] theorem Receiver.storeByte_buf (r : Receiver) (i : Fin frameMax) (b : Byte) :
    (r.storeByte i b).buf = Memory.write r.buf i.val b := by
  unfold Receiver.storeByte; split <;> [rfl; (split <;> rfl)]

@[simp] theorem Receiver.storeByte_rxArmed (r : Receiver) (i : Fin frameMax) (b : Byte) :
    (r.storeByte i b).rxArmed = r.rxArmed := by
  unfold Receiver.storeByte; split <;> [rfl; (split <;> rfl)]

@[simp] theorem Receiver.storeByte_framePresent (r : Receiver) (i : Fin frameMax) (b : Byte) :
    (r.storeByte i b).framePresent = (r.framePresent || decide (b = term)) := by
  unfold Receiver.storeByte
  by_cases hb : b = term
  · rw [if_pos hb, decide_eq_true hb]; exact (Bool.or_true _).symm
  · rw [if_neg hb, decide_eq_false hb]; split <;> exact (Bool.or_false _).symm

/-- The index after a store: one on, or 0 where the buffer is full without a terminator. -/
theorem Receiver.storeByte_idx (r : Receiver) (i : Fin frameMax) (b : Byte) :
    (r.storeByte i b).idx.toNat = if b ≠ term ∧ i.val + 1 = frameMax then 0 else i.val + 1 := by
  have hi : i.val < 32 := i.isLt
  have hmod : (i.val + 1) % 2 ^ 6 = i.val + 1 := Nat.mod_eq_of_lt (by omega)
  unfold Receiver.storeByte
  by_cases hb : b = term
  · rw [if_pos hb, if_neg (by simp [hb])]
    simp only [BitVec.toNat_ofNat, hmod]
  · rw [if_neg hb]
    by_cases hf : i.val + 1 = frameMax
    · rw [if_pos hf, if_pos ⟨hb, hf⟩]; rfl
    · rw [if_neg hf, if_neg (by simp [hf])]
      simp only [BitVec.toNat_ofNat, hmod]

/-- A receive event that goes on dropped the byte, or stored it and re-armed, or stored it and halted. -/
theorem State.receiveByte_next {s t : State} {b : Byte} {ok : Bool} (h : s.receiveByte b ok = .next t) :
    ((s.halt.halted = true ∨ s.receiver.rxArmed = false) ∧ t = s) ∨
    (s.halt.halted = false ∧ s.receiver.rxArmed = true ∧
      ∃ hi : s.receiver.storeIndex < frameMax,
        (ok = true ∧ t = { s with receiver := s.receiver.storeByte ⟨s.receiver.storeIndex, hi⟩ b }) ∨
        (ok = false ∧
          t = { s with receiver := s.receiver.storeByte ⟨s.receiver.storeIndex, hi⟩ b }.haltEntry .rxRearmFail)) := by
  unfold State.receiveByte at h
  split at h
  · rename_i hd
    cases h
    exact .inl ⟨by simpa using hd, rfl⟩
  · rename_i hd
    have hd' : s.halt.halted = false ∧ s.receiver.rxArmed = true := by simpa using hd
    split at h
    · rename_i hi
      refine .inr ⟨hd'.1, hd'.2, hi, ?_⟩
      split at h
      · rename_i hok; cases h; exact .inl ⟨hok, rfl⟩
      · rename_i hok; exact .inr ⟨by simpa using hok, State.raiseHalt_next h⟩
    · cases h

/-! ### Parsing -/

theorem State.parseFail_eq (s : State) :
    s.parseFail = .next { s with receiver := { s.receiver with idx := 0 }, result := some 0 } := rfl

theorem State.parseSuccess_eq (s : State) (x : Sensor) :
    s.parseSuccess x =
      .next { s with
        receiver := { s.receiver with idx := 0 }, sensor := { x with responseReady := true }, result := some 1 } := rfl

/-- A parse from the length check on never stops: it fails, or its decoder's fields are written. -/
theorem State.parseBody_cases (s : State) (len : Byte) (d : Config → Byte → Receiver → Sensor → Option Sensor) :
    s.parseBody len d = s.parseFail ∨
    ∃ x, LenOk len ∧ Memory.read s.receiver.buf (4 + len.toNat) = term ∧
      d s.cfg len s.receiver s.sensor = some x ∧ s.parseBody len d = s.parseSuccess x := by
  unfold State.parseBody
  by_cases h : LenOk len
  · rw [dif_pos h]
    by_cases ht : s.receiver.memRead ⟨4 + len.toNat, terminatorIndex_lt h⟩ = term
    · rw [if_pos ht]
      cases hd : d s.cfg len s.receiver s.sensor with
      | none => exact .inl rfl
      | some x => exact .inr ⟨x, h, ht, rfl, rfl⟩
    · rw [if_neg ht]; exact .inl rfl
  · rw [dif_neg h]; exact .inl rfl

/-- A whole parse never stops: it fails, or the decoder of the frame's CMD gave the fields that are written. -/
theorem State.parseFrame_cases (s : State) :
    s.parseFrame = s.parseFail ∨
    ∃ x, decodeByCmd (s.receiver.memRead 2) s.cfg (s.receiver.memRead 3) s.receiver s.sensor = some x ∧
      s.parseFrame = s.parseSuccess x := by
  unfold State.parseFrame
  split
  · exact .inl rfl
  · split
    · exact .inl rfl
    · rcases s.parseBody_cases (s.receiver.memRead 3) (decodeByCmd (s.receiver.memRead 2)) with h | ⟨x, -, -, hx, h⟩
      · exact .inl h
      · exact .inr ⟨x, hx, h⟩

end Sys2Proof.Machine
end

