-- ==== Sys2Proof/Laws/PerInstr.lean ====
section
/-!
SUPPORT. Statements made per instruction. `TableMatch`: the encoding of a well-formed instruction meets the match and mask
of its row in spec/opcode_table.json.
-/

namespace Sys2Proof.Laws.TableMatch

/-- A host row: the word under the mask 0x0000000000FF is the row's match. -/
def HostRow (code : HostWord) (c : Code) : Prop := ∃ w, c = .host w ∧ w &&& 0xFF#48 = code

/-- A response row: the frame's first four bytes under the mask 0xFFFFFF00 are 55 AA CMD. -/
def ResponseRow (cmd : Byte) (c : Code) : Prop := ∃ len, c = .response [0x55#8, 0xAA#8, cmd, len]

/-- The encoding of the instruction meets the match of its row. -/
def Statement (i : Instr) : Prop :=
  i.WellFormed →
  match i with
  | .tinit _ _ => HostRow 0x000000000001#48 (encode i)
  | .tread _ => HostRow 0x000000000002#48 (encode i)
  | .twrite _ _ => HostRow 0x000000000003#48 (encode i)
  | .dbupd => HostRow 0x000000000010#48 (encode i)
  | .dbpush => HostRow 0x000000000011#48 (encode i)
  | .dbheld => HostRow 0x000000000012#48 (encode i)
  | .dbrel => HostRow 0x000000000013#48 (encode i)
  | .rxarm => HostRow 0x000000000020#48 (encode i)
  | .fpoll => HostRow 0x000000000021#48 (encode i)
  | .parse => HostRow 0x000000000022#48 (encode i)
  | .smeas => HostRow 0x000000000030#48 (encode i)
  | .sinfo => HostRow 0x000000000031#48 (encode i)
  | .sdef => HostRow 0x000000000032#48 (encode i)
  | .srst => HostRow 0x000000000033#48 (encode i)
  | .gdist => HostRow 0x000000000040#48 (encode i)
  | .gerr => HostRow 0x000000000041#48 (encode i)
  | .gport => HostRow 0x000000000042#48 (encode i)
  | .gfw => HostRow 0x000000000043#48 (encode i)
  | .gcal => HostRow 0x000000000044#48 (encode i)
  | .gptype => HostRow 0x000000000045#48 (encode i)
  | .gofs _ => HostRow 0x000000000046#48 (encode i)
  | .gxtalk => HostRow 0x000000000047#48 (encode i)
  | .grdy => HostRow 0x000000000048#48 (encode i)
  | .illegal _ => ∃ w, encode i = .host w ∧ ∀ op ∈ assignedOps, w &&& 0xFF#48 ≠ op.setWidth 48
  | .rx b rearmOk => ∃ v : BitVec 9, encode i = .rx v ∧ v.extractLsb' 0 8 = b ∧ v.getLsbD 8 = rearmOk
  | .cmdMeasure => encode i = .command [0x55#8, 0xAA#8, 0x81#8, 0x00#8, 0xFA#8]
  | .cmdGetProductInfo => encode i = .command [0x55#8, 0xAA#8, 0x86#8, 0x00#8, 0xFA#8]
  | .cmdGetFactoryDefaults => encode i = .command [0x55#8, 0xAA#8, 0x85#8, 0x00#8, 0xFA#8]
  | .cmdReset => encode i = .command [0x55#8, 0xAA#8, 0x84#8, 0x00#8, 0xFA#8]
  | .rspMeasure _ => ResponseRow 0x81#8 (encode i)
  | .rspReset _ => ResponseRow 0x84#8 (encode i)
  | .rspGetFactoryDefaults _ => ResponseRow 0x85#8 (encode i)
  | .rspGetProductInfo _ => ResponseRow 0x86#8 (encode i)
  | .rspUnsupported cmd _ => cmd ∉ decodedCmds ∧ ResponseRow cmd (encode i)

/-- The table's mask selects the operation code of a host word. -/
theorem mask_hostWord (op sel : Byte) (arg : Word) : hostWord op sel arg &&& 0xFF#48 = op.setWidth 48 := by
  unfold hostWord
  refine BitVec.eq_of_getLsbD_eq fun i hi => ?_
  have hm : (0xFF#48).getLsbD i = decide (i < 8) := by
    interval_cases i <;> rfl
  rw [BitVec.getLsbD_and, BitVec.getLsbD_setWidth, hm, BitVec.getLsbD_append, BitVec.getLsbD_append]
  by_cases h : i < 8
  · rw [if_pos (by omega), if_pos h]; simp [h, hi]
  · simp [h, BitVec.getLsbD_of_ge op i (by omega)]

theorem hostRow_hostWord {code : HostWord} (op sel : Byte) (arg : Word) (h : op.setWidth 48 = code) :
    HostRow code (.host (hostWord op sel arg)) :=
  ⟨_, rfl, (mask_hostWord op sel arg).trans h⟩

theorem tinit (sel : Byte) (arg : Word) : Statement (.tinit sel arg) := fun _ => hostRow_hostWord _ _ _ rfl

theorem tread (sel : Byte) : Statement (.tread sel) := fun _ => hostRow_hostWord _ _ _ rfl

theorem twrite (sel : Byte) (arg : Word) : Statement (.twrite sel arg) := fun _ => hostRow_hostWord _ _ _ rfl

theorem dbupd : Statement (.dbupd) := fun _ => hostRow_hostWord _ _ _ rfl

theorem dbpush : Statement (.dbpush) := fun _ => hostRow_hostWord _ _ _ rfl

theorem dbheld : Statement (.dbheld) := fun _ => hostRow_hostWord _ _ _ rfl

theorem dbrel : Statement (.dbrel) := fun _ => hostRow_hostWord _ _ _ rfl

theorem rxarm : Statement (.rxarm) := fun _ => hostRow_hostWord _ _ _ rfl

theorem fpoll : Statement (.fpoll) := fun _ => hostRow_hostWord _ _ _ rfl

theorem parse : Statement (.parse) := fun _ => hostRow_hostWord _ _ _ rfl

theorem smeas : Statement (.smeas) := fun _ => hostRow_hostWord _ _ _ rfl

theorem sinfo : Statement (.sinfo) := fun _ => hostRow_hostWord _ _ _ rfl

theorem sdef : Statement (.sdef) := fun _ => hostRow_hostWord _ _ _ rfl

theorem srst : Statement (.srst) := fun _ => hostRow_hostWord _ _ _ rfl

theorem gdist : Statement (.gdist) := fun _ => hostRow_hostWord _ _ _ rfl

theorem gerr : Statement (.gerr) := fun _ => hostRow_hostWord _ _ _ rfl

theorem gport : Statement (.gport) := fun _ => hostRow_hostWord _ _ _ rfl

theorem gfw : Statement (.gfw) := fun _ => hostRow_hostWord _ _ _ rfl

theorem gcal : Statement (.gcal) := fun _ => hostRow_hostWord _ _ _ rfl

theorem gptype : Statement (.gptype) := fun _ => hostRow_hostWord _ _ _ rfl

theorem gofs (sel : Byte) : Statement (.gofs sel) := fun _ => hostRow_hostWord _ _ _ rfl

theorem gxtalk : Statement (.gxtalk) := fun _ => hostRow_hostWord _ _ _ rfl

theorem grdy : Statement (.grdy) := fun _ => hostRow_hostWord _ _ _ rfl

theorem illegal (op : Byte) : Statement (.illegal op) := fun h =>
  ⟨_, rfl, fun op' hop e => h (by
    rw [mask_hostWord] at e
    have := congrArg (BitVec.setWidth 8) e
    rw [BitVec.setWidth_setWidth_of_le op (by omega), BitVec.setWidth_setWidth_of_le op' (by omega),
      BitVec.setWidth_eq, BitVec.setWidth_eq] at this
    exact this ▸ hop)⟩

theorem rx (b : Byte) (rearmOk : Bool) : Statement (.rx b rearmOk) := fun _ =>
  ⟨_, rfl, rxCode_byte b rearmOk, rxCode_rearmOk b rearmOk⟩

theorem cmdMeasure : Statement .cmdMeasure := fun _ => rfl

theorem cmdGetProductInfo : Statement .cmdGetProductInfo := fun _ => rfl

theorem cmdGetFactoryDefaults : Statement .cmdGetFactoryDefaults := fun _ => rfl

theorem cmdReset : Statement .cmdReset := fun _ => rfl

theorem rspMeasure (len : Byte) : Statement (.rspMeasure len) := fun _ => ⟨len, rfl⟩

theorem rspReset (len : Byte) : Statement (.rspReset len) := fun _ => ⟨len, rfl⟩

theorem rspGetFactoryDefaults (len : Byte) : Statement (.rspGetFactoryDefaults len) := fun _ => ⟨len, rfl⟩

theorem rspGetProductInfo (len : Byte) : Statement (.rspGetProductInfo len) := fun _ => ⟨len, rfl⟩

theorem rspUnsupported (cmd len : Byte) : Statement (.rspUnsupported cmd len) := fun h => ⟨h.1, len, rfl⟩

end Sys2Proof.Laws.TableMatch
end

