-- ==== Sys2Proof/Laws/Run.lean ====
section
/-!
SUPPORT. What a step can do, said once, and runs of several events: one event at a time, and one run after another.
-/

namespace Sys2Proof.Machine

/-- A step that goes on held the state of a running block, ran a host word's instruction, ran RX, or reset. -/
theorem step_next {s t : State} (h : step s = .next t) :
    (s.pending = [] ∧ s.halt.halted = false ∧ t = s) ∨
    (∃ w env rest, s.pending = .host w env :: rest ∧
      exec (decodeHost w) { s with pending := rest, env := env, result := none } = .next t) ∨
    (∃ b ok rest, s.pending = .rx b ok :: rest ∧ exec (.rx b ok) { s with pending := rest, result := none } = .next t) ∨
    (∃ rest, s.pending = .reset :: rest ∧ t = { s with pending := rest, result := none }.resetEvent) := by
  unfold step State.fetch at h
  cases hp : s.pending with
  | nil =>
    rw [hp] at h
    obtain ⟨hl, ht⟩ := hostOperation_next h
    cases ht
    exact .inl ⟨rfl, hl, rfl⟩
  | cons e rest =>
    rw [hp] at h
    cases e with
    | host w env => exact .inr (.inl ⟨w, env, rest, rfl, h⟩)
    | rx b ok => exact .inr (.inr (.inl ⟨b, ok, rest, rfl, h⟩))
    | reset => cases h; exact .inr (.inr (.inr ⟨rest, rfl, rfl⟩))

@[simp] theorem run_zero (s : State) : run 0 s = .next s := rfl

/-- A run whose first event goes on is the run of the others. -/
theorem run_next {n : Nat} {s t : State} (h : step s = .next t) : run (n + 1) s = run n t := by
  rw [run, h]

/-- A run of `n` events that goes on, then `m` more. -/
theorem run_add {n m : Nat} {s t : State} (h : run n s = .next t) : run (n + m) s = run m t := by
  induction n generalizing s with
  | zero =>
    cases h
    rw [Nat.zero_add]
  | succ n ih =>
    rw [Nat.add_right_comm, run]
    rw [run] at h
    cases hs : step s with
    | next u => rw [hs] at h; exact ih h
    | fault r => rw [hs] at h; cases h
    | refused r => rw [hs] at h; cases h

/-- The results of a run whose first event goes on. -/
theorem results_next {n : Nat} {s t : State} (h : step s = .next t) :
    results (n + 1) s = t.result :: results n t := by
  rw [results, h]

/-- The results of a run that goes on, then of the events after it. -/
theorem results_add {n m : Nat} {s t : State} (h : run n s = .next t) :
    results (n + m) s = results n s ++ results m t := by
  induction n generalizing s with
  | zero =>
    cases h
    simp [results]
  | succ n ih =>
    rw [run] at h
    cases hs : step s with
    | next u =>
      rw [hs] at h
      rw [Nat.add_right_comm, results_next hs, results_next hs, ih h]
      rfl
    | fault r => rw [hs] at h; cases h
    | refused r => rw [hs] at h; cases h

/-- The host's run of the machine is `run`. -/
theorem core_run_eq (n : Nat) (s : State) : Host.Core.run Sys2Proof.core n s = run n s := by
  induction n generalizing s with
  | zero => rfl
  | succ n ih =>
    refine (Host.Core.run.eq_2 Sys2Proof.core s n).trans ?_
    rw [run]
    cases hs : step s with
    | next s' =>
      have h : Sys2Proof.core.step s = .next s' := hs
      rw [h]
      exact ih s'
    | fault r =>
      have h : Sys2Proof.core.step s = .fault r := hs
      rw [h]
      rfl
    | refused r =>
      have h : Sys2Proof.core.step s = .refused r := hs
      rw [h]
      rfl

end Sys2Proof.Machine
end

