-- ==== Sys2Proof/Tests/Slice0.lean ====
section
/-!
SUPPORT. The model's own tests: the smoke tests of well-formedness, the decoding of a word written out from the spec for
every instruction, one or two steps per instruction with the values of spec/95_test_vectors.md (the vector is named in
each docstring), and for every obligation with hypotheses a concrete case that meets them (`witness_<obligation>`).
-/

open Sys2Proof Sys2Proof.Machine

namespace Sys2Proof.Tests

/-! ### Small states -/

/-- The next state, where there is one. -/
def nextOf (r : Result) : Option State :=
  match r with
  | .next s => some s
  | .fault _ => none
  | .refused _ => none

/-- The fault, where there is one. -/
def faultOf (r : Result) : Option Fault :=
  match r with
  | .next _ => none
  | .fault f => some f
  | .refused _ => none

/-- The halt cause an outcome halts with. -/
def haltOf (r : Result) : Option HaltCause :=
  (nextOf r).bind fun s => if s.halt.halted then some s.halt.cause else none

/-- The reset state with the tick, the pin and the two answers of the platform. -/
def at_ (now : Tick) (pin : Bool) (ok : Bool) : State :=
  { State.reset with env := { now := now, pin := pin, txOk := ok, armOk := ok } }

/-- `T[0] = (start, duration, running)` at the tick `now`. -/
def timed (x : Timer) (now : Tick) : State :=
  { at_ now true true with timers := [x, { start := 0, duration := 100, running := false }] }

/-- The debounce FSM in a state with its timer, at the tick `now` with the pin at `pin`. -/
def debouncing (d : DbState) (pressing : Bool) (x : Timer) (now : Tick) (pin : Bool) : State :=
  { at_ now pin true with
    debounce := { timer := x, dbState := d, pushed := false, pressing := pressing, released := false } }

/-- An armed receiver with the buffer given and the index at `idx`. -/
def receiving (bytes : List Byte) (idx : BitVec 6) : State :=
  { State.reset with receiver := { buf := Memory.ofBytes 0 bytes, idx := idx, framePresent := false, rxArmed := true } }

/-- The sensor state after PV1 and PV17 and PV16: every field decoded once. -/
def decoded : State :=
  { State.reset with
    sensor :=
      { distance := 300, errorCode := 7, port := 1, firmware := 0x12, calibration := 3, productType := 3
        offset := { o0 := 1, o1 := 2, o2 := 3, o3 := 4 }, crosstalk := 0x0102
        responseReady := true, distanceFresh := true } }

/-- A halted block. -/
def haltedState : State := State.reset.haltEntry .badTimer

/-- The reset state of a block with other parameters. -/
def withCfg (c : Config) : State := State.resetWith c

def noRelease : Config := { Config.spec with hasReleaseEvent := false }
def signedCheck : Config := { Config.spec with durCheckSigned := true }
def lazyArm : Config := { Config.spec with timerVariant := .armOnFirstRead }
def idleArms : Config := { Config.spec with writeIdleArms := true }
def lenChecked : Config := { Config.spec with decodeLenCheck := .atLeast }

/-- The Measure response of L1-4. -/
def measureFrame : List Byte := [0x55, 0xAA, 0x81, 0x03, 0x01, 0x2C, 0x07, 0xFA]

/-- The Get-factory-defaults response of PV16. -/
def defaultsFrame : List Byte := [0x55, 0xAA, 0x85, 0x07, 0x01, 0x02, 0x03, 0x04, 0x01, 0x02, 0x03, 0xFA]

/-- The Get-product-info response of PV17. -/
def infoFrame : List Byte := [0x55, 0xAA, 0x86, 0x03, 0x03, 0x01, 0x12, 0xFA]

/-! ### Well-formedness: an ill-formed term for each check -/

/-- An assigned code is no ILLEGAL row (R85). -/
theorem test_wf_illegal : ¬ (Instr.illegal 0x01).WellFormed ∧ (Instr.illegal 0x04).WellFormed := by decide

/-- LEN = 28 exceeds the frame (R89, R174); 27 is the largest legal one. -/
theorem test_wf_rsp_len :
    ¬ (Instr.rspMeasure 28).WellFormed ∧ ¬ (Instr.rspReset 28).WellFormed ∧
    ¬ (Instr.rspGetFactoryDefaults 28).WellFormed ∧ ¬ (Instr.rspGetProductInfo 28).WellFormed ∧
    ¬ (Instr.rspUnsupported 0x82 28).WellFormed ∧ (Instr.rspReset 27).WellFormed := by decide

/-- A CMD with a decoder is not unsupported (R184). -/
theorem test_wf_rsp_cmd :
    ¬ (Instr.rspUnsupported 0x81 3).WellFormed ∧ ¬ (Instr.rspUnsupported 0x84 0).WellFormed ∧
    ¬ (Instr.rspUnsupported 0x85 7).WellFormed ∧ ¬ (Instr.rspUnsupported 0x86 3).WellFormed ∧
    (Instr.rspUnsupported 0x83 0).WellFormed := by decide

/-! ### Decoding of words written out from the spec -/

/-- R96, TV12: the timer words. -/
theorem test_decode_timer :
    decode (.host 0x000000320001) = .ok (.tinit 0 50) ∧ decode (.host 0x123456780101) = .ok (.tinit 1 0x12345678) ∧
    decode (.host 0x000000000102) = .ok (.tread 1) ∧ decode (.host 0x000000140003) = .ok (.twrite 0 20) := by decide

/-- R84: the debounce words (DV2, DV11, DV13, DV15). -/
theorem test_decode_debounce :
    decode (.host 0x000000000010) = .ok .dbupd ∧ decode (.host 0x000000000011) = .ok .dbpush ∧
    decode (.host 0x000000000012) = .ok .dbheld ∧ decode (.host 0x000000000013) = .ok .dbrel := by decide

/-- R84: the receiver and parser words (RV2, RV13, L1-4). -/
theorem test_decode_receiver :
    decode (.host 0x000000000020) = .ok .rxarm ∧ decode (.host 0x000000000021) = .ok .fpoll ∧
    decode (.host 0x000000000022) = .ok .parse ∧ decode (.host 0xFFFFFFFFFF21) = .ok .fpoll := by decide

/-- R84: the sends (SV1 to SV4). -/
theorem test_decode_sends :
    decode (.host 0x000000000030) = .ok .smeas ∧ decode (.host 0x000000000031) = .ok .sinfo ∧
    decode (.host 0x000000000032) = .ok .sdef ∧ decode (.host 0x000000000033) = .ok .srst := by decide

/-- R84: the accessors (SV7 to SV17, SV25). -/
theorem test_decode_accessors :
    decode (.host 0x000000000040) = .ok .gdist ∧ decode (.host 0x000000000041) = .ok .gerr ∧
    decode (.host 0x000000000042) = .ok .gport ∧ decode (.host 0x000000000043) = .ok .gfw ∧
    decode (.host 0x000000000044) = .ok .gcal ∧ decode (.host 0x000000000045) = .ok .gptype ∧
    decode (.host 0x000000000346) = .ok (.gofs 3) ∧ decode (.host 0x000000000047) = .ok .gxtalk ∧
    decode (.host 0x000000000048) = .ok .grdy := by decide

/-- EV1 to EV3: the unassigned codes just past each group. -/
theorem test_decode_illegal :
    [(0x000000000000 : HostWord), 0x0000000000FF, 0x000000000004, 0x000000000014, 0x000000000023, 0x000000000034,
      0x000000000049].map decodeHost =
    [.illegal 0x00, .illegal 0xFF, .illegal 0x04, .illegal 0x14, .illegal 0x23, .illegal 0x34, .illegal 0x49] := by
  decide

/-- R87: a receive event of the byte 0xFA with and without a successful re-arm. -/
theorem test_decode_rx :
    decode (.rx 0x1FA) = .ok (.rx 0xFA true) ∧ decode (.rx 0x0FA) = .ok (.rx 0xFA false) := by decide

/-- R91: the four command frames, and one the block never sends. -/
theorem test_decode_commands :
    decode (.command [0x55, 0xAA, 0x81, 0x00, 0xFA]) = .ok .cmdMeasure ∧
    decode (.command [0x55, 0xAA, 0x86, 0x00, 0xFA]) = .ok .cmdGetProductInfo ∧
    decode (.command [0x55, 0xAA, 0x85, 0x00, 0xFA]) = .ok .cmdGetFactoryDefaults ∧
    decode (.command [0x55, 0xAA, 0x84, 0x00, 0xFA]) = .ok .cmdReset ∧
    decode (.command [0x55, 0xAA, 0x82, 0x00, 0xFA]) = .error (.neverSent 0x82) := by decide

/-- R91: what is no command frame, by name. -/
theorem test_decode_command_errors :
    decode (.command [0x54, 0xAA, 0x81, 0x00, 0xFA]) = .error .badHeader1 ∧
    decode (.command [0x55, 0xAB, 0x81, 0x00, 0xFA]) = .error .badHeader2 ∧
    decode (.command [0x55, 0xAA, 0x81, 0x01, 0xFA]) = .error .badLength ∧
    decode (.command [0x55, 0xAA, 0x81, 0x00, 0xFB]) = .error .badTerminator ∧
    decode (.command [0x55, 0xAA, 0x81, 0x00]) = .error .wrongSize := by decide

/-- R92: a response of each kind (the frames of PV1, PV10, PV13, PV16, PV17). -/
theorem test_decode_responses :
    decode (.response measureFrame) = .ok (.rspMeasure 3) ∧
    decode (.response [0x55, 0xAA, 0x84, 0x00, 0xFA]) = .ok (.rspReset 0) ∧
    decode (.response defaultsFrame) = .ok (.rspGetFactoryDefaults 7) ∧
    decode (.response infoFrame) = .ok (.rspGetProductInfo 3) ∧
    decode (.response [0x55, 0xAA, 0x82, 0x00, 0xFA]) = .ok (.rspUnsupported 0x82 0) := by decide

/-- R172 to R174: what is no response frame, by name (PV3, PV4, PV8). -/
theorem test_decode_response_errors :
    decode (.response [0x54, 0xAA, 0x81, 0x03]) = .error .badHeader1 ∧
    decode (.response [0x55, 0xAB, 0x81, 0x03]) = .error .badHeader2 ∧
    decode (.response [0x55, 0xAA, 0x84, 0x1C]) = .error .badLength ∧
    decode (.response [0x55, 0xAA, 0x84]) = .error .wrongSize := by decide

/-- The rows of spec/opcode_table.json as it numbers them. -/
theorem test_decode_table :
    decodeTableWord 48 0x000000000001 = some (.tinit 0 0) ∧ decodeTableWord 8 0x00 = some (.illegal 0x00) ∧
    decodeTableWord 16 0x0055 = some (.rx 0x55 false) ∧ decodeTableWord 40 0x55AA8600FA = some .cmdGetProductInfo ∧
    decodeTableWord 32 0x55AA8500 = some (.rspGetFactoryDefaults 0) ∧
    decodeTableWord 32 0x55AA0000 = some (.rspUnsupported 0x00 0) := by decide

/-- The lines of assembly of R94 and R96. -/
theorem test_assembly :
    (Instr.tinit 0 50).assembly = some "TINIT t0, 50" ∧ (Instr.tread 1).assembly = some "TREAD t1" ∧
    (Instr.gofs 3).assembly = some "GOFS 3" ∧ (Instr.gofs 4).assembly = none ∧ Instr.grdy.assembly = some "GRDY" := by
  decide

/-! ### Timers -/

/-- TV20: a new TINIT restarts from its own tick. -/
theorem test_tinit :
    nextOf (exec (.tinit 0 50) (timed { start := 1000, duration := 50, running := true } 1020)) =
      some { timed { start := 1020, duration := 50, running := true } 1020 with result := some 0 } := by decide

/-- TV4, TV26, TV27 and L1-1: the duration that is stored, and the variant that arms on the first read. -/
theorem test_tinit_durations :
    (nextOf (exec (.tinit 0 0) (at_ 10 true true))).map (·.timers[0]?) =
      some (some { start := 10, duration := 100, running := true }) ∧
    (nextOf (exec (.tinit 0 0x80000000) (withCfg signedCheck))).map (·.timers[0]?) =
      some (some { start := 0, duration := 100, running := true }) ∧
    (nextOf (exec (.tinit 0 0x80000000) State.reset)).map (·.timers[0]?) =
      some (some { start := 0, duration := 0x80000000, running := true }) ∧
    (nextOf (exec (.tinit 0 50) { withCfg lazyArm with env := (at_ 1000 true true).env })).map (·.timers[0]?) =
      some (some { start := 0, duration := 50, running := false }) := by decide

/-- TV7, TV8 (R121): an expiry across the wrap of the counter. -/
theorem test_tread_wrap :
    nextOf (exec (.tread 0) (timed { start := 0xFFFFFFF0, duration := 0x20, running := true } 0x0F)) =
      some { timed { start := 0xFFFFFFF0, duration := 0x20, running := true } 0x0F with result := some 0 } ∧
    nextOf (exec (.tread 0) (timed { start := 0xFFFFFFF0, duration := 0x20, running := true } 0x10)) =
      some { timed { start := 0x10, duration := 0x20, running := true } 0x10 with result := some 1 } := by decide

/-- TV1, TV23: a read of an idle timer arms it, and an id past the timers halts. -/
theorem test_tread_idle :
    nextOf (exec (.tread 0) (at_ 5 true true)) =
      some { timed { start := 5, duration := 100, running := true } 5 with result := some 0 } ∧
    nextOf (exec (.tread 255) State.reset) = some (State.reset.haltEntry .badTimer) := by decide

/-- TV12: a write on a running timer keeps its start. -/
theorem test_twrite :
    nextOf (exec (.twrite 0 20) (timed { start := 1000, duration := 50, running := true } 1030)) =
      some { timed { start := 1000, duration := 20, running := true } 1030 with result := some 0 } := by decide

/-- TV14, TV28, TV29: a write on an idle timer, and a write that idles. -/
theorem test_twrite_variants :
    (nextOf (exec (.twrite 1 30) (at_ 500 true true))).map (·.timers[1]?) =
      some (some { start := 0, duration := 30, running := false }) ∧
    (nextOf (exec (.twrite 1 30) { withCfg idleArms with env := (at_ 500 true true).env })).map (·.timers[1]?) =
      some (some { start := 500, duration := 30, running := true }) ∧
    (nextOf (exec (.twrite 0 20)
        { timed { start := 1000, duration := 50, running := true } 1010 with cfg := lazyArm })).map (·.timers[0]?) =
      some (some { start := 1000, duration := 20, running := false }) := by decide

/-! ### Debounce -/

/-- DV2, DV5: the press is armed, and confirmed where the timer expires with the pin low. -/
theorem test_dbupd_press :
    nextOf (exec .dbupd (at_ 500 false true)) =
      some { debouncing .confirmingPress false { start := 500, duration := 40, running := true } 500 false with
        result := some 0 } ∧
    (nextOf (exec .dbupd
        (debouncing .confirmingPress false { start := 500, duration := 40, running := true } 540 false))).map
      (·.debounce) =
      some { timer := { start := 540, duration := 40, running := true }, dbState := .pressed, pushed := true,
             pressing := true, released := false } := by decide

/-- DV9, DV10, DV18: the release is confirmed or bounces, with and without a release event. -/
theorem test_dbupd_release :
    (nextOf (exec .dbupd
        (debouncing .confirmingRelease true { start := 800, duration := 40, running := true } 840 true))).map
      (·.debounce) =
      some { timer := { start := 840, duration := 40, running := true }, dbState := .released, pushed := false,
             pressing := false, released := true } ∧
    (nextOf (exec .dbupd
        (debouncing .confirmingRelease true { start := 800, duration := 40, running := true } 840 false))).map
      (·.debounce) =
      some { timer := { start := 840, duration := 40, running := true }, dbState := .pressed, pushed := false,
             pressing := true, released := false } ∧
    (nextOf (exec .dbupd
        { debouncing .confirmingRelease true { start := 800, duration := 40, running := true } 840 true with
          cfg := noRelease })).map (·.debounce.released) = some false := by decide

/-- DV11. -/
theorem test_dbpush :
    nextOf (exec .dbpush { State.reset with debounce := { State.reset.debounce with pushed := true } }) =
      some { State.reset with result := some 1 } := by decide

/-- DV13, DV14: the level is 1 while the release is being confirmed, and 0 while the press is. -/
theorem test_dbheld :
    (nextOf (exec .dbheld (debouncing .confirmingRelease true { start := 800, duration := 40, running := true } 800
      true))).bind (·.result) = some 1 ∧
    (nextOf (exec .dbheld (debouncing .confirmingPress false { start := 900, duration := 40, running := true } 900
      false))).bind (·.result) = some 0 := by decide

/-- DV15, DV17. -/
theorem test_dbrel :
    nextOf (exec .dbrel { State.reset with debounce := { State.reset.debounce with released := true } }) =
      some { State.reset with result := some 1 } ∧
    nextOf (exec .dbrel (withCfg noRelease)) = some ((withCfg noRelease).haltEntry .illegalOp) := by decide

/-! ### Receiver -/

/-- RV2, RV3. -/
theorem test_rxarm :
    nextOf (exec .rxarm State.reset) = some { receiving [] 0 with result := some 0 } ∧
    haltOf (exec .rxarm (at_ 0 true false)) = some .rxRearmFail := by decide

/-- RV8, RV7: the 32nd byte, with and without a terminator. -/
theorem test_rx_last :
    (nextOf (exec (.rx 0xFA true) (receiving [] 31))).map
      (fun s => (s.receiver.buf.read 31, s.receiver.idx, s.receiver.framePresent)) = some (0xFA, 32, true) ∧
    (nextOf (exec (.rx 0x00 true) (receiving [] 31))).map
      (fun s => (s.receiver.idx, s.receiver.framePresent)) = some (0, false) := by decide

/-- RV9, RV10: a byte on a full buffer goes to index 0, and a failed re-arm halts with the byte kept. -/
theorem test_rx_full_and_fail :
    (nextOf (exec (.rx 0x12 true) (receiving measureFrame 32))).map
      (fun s => (s.receiver.buf.read 0, s.receiver.buf.read 1, s.receiver.idx)) = some (0x12, 0xAA, 1) ∧
    (nextOf (exec (.rx 0x33 false) (receiving [] 3))).map
      (fun s => (s.receiver.buf.read 3, s.receiver.idx, s.receiver.rxArmed, s.halt.cause)) =
      some (0x33, 4, false, .rxRearmFail) := by decide

/-- RV13, RV14. -/
theorem test_fpoll :
    nextOf (exec .fpoll { State.reset with receiver := { State.reset.receiver with framePresent := true } }) =
      some { State.reset with result := some 1 } ∧
    nextOf (exec .fpoll State.reset) = some { State.reset with result := some 0 } := by decide

/-! ### Parser -/

/-- PV1, PV25: PARSE of a Measure response, with a write index it does not look at. -/
theorem test_parse_measure :
    nextOf (exec .parse (receiving measureFrame 3)) =
      some { receiving measureFrame 0 with
        result := some 1
        sensor := { State.reset.sensor with
          distance := 300, errorCode := 7, responseReady := true, distanceFresh := true } } := by decide

/-- PV2 to PV8, PV11, PV12, PV13: the failures. -/
theorem test_parse_failures :
    ([[], [0x54, 0xAA, 0x81, 0x03, 0x01, 0x2C, 0x07, 0xFA], [0x55, 0xAB, 0x81, 0x03, 0x00, 0x00, 0x00, 0xFA],
      [0x00, 0x55, 0xAA, 0x81, 0x03, 0x01, 0x2C, 0x07, 0xFA], [0x55, 0xAA, 0x81, 0xFF, 0xFA],
      [0x55, 0xAA, 0x84, 0x1C], [0x55, 0xAA, 0x81, 0x03, 0x01, 0x2C, 0x07, 0xFB],
      [0x55, 0xAA, 0x81, 0x02, 0x01, 0x2C, 0x07, 0xFA], [0x55, 0xAA, 0x82, 0x00, 0xFA]] : List (List Byte)).all
      (fun f => decide (nextOf (exec .parse (receiving f 9)) = some { receiving f 0 with result := some 0 })) = true := by
  decide

/-- PV19, PV20: a Measure response with LEN = 0 reads the terminator as data, unless the length is checked. -/
theorem test_rsp_measure_short :
    (nextOf (exec (.rspMeasure 0) (receiving [0x55, 0xAA, 0x81, 0x00, 0xFA] 5))).map
      (fun s => (s.sensor.distance, s.sensor.errorCode, s.result)) = some (0xFA00, 0, some 1) ∧
    (nextOf (exec (.rspMeasure 0) { receiving [0x55, 0xAA, 0x81, 0x00, 0xFA] 5 with cfg := lenChecked })).map
      (fun s => (s.sensor.distance, s.sensor.responseReady, s.result)) = some (0, false, some 0) := by decide

/-- PV22: a payload byte 0xFA is payload. -/
theorem test_rsp_measure_fa :
    (nextOf (exec (.rspMeasure 3) (receiving [0x55, 0xAA, 0x81, 0x03, 0x00, 0xFA, 0x00, 0xFA] 8))).map
      (·.sensor.distance) = some 250 := by decide

/-- PV9, PV10: a Reset response of the largest and of the smallest length. -/
theorem test_rsp_reset :
    nextOf (exec (.rspReset 0) (receiving [0x55, 0xAA, 0x84, 0x00, 0xFA] 5)) =
      some { receiving [0x55, 0xAA, 0x84, 0x00, 0xFA] 0 with
        result := some 1, sensor := { State.reset.sensor with responseReady := true } } ∧
    (nextOf (exec (.rspReset 27) (receiving ([0x55, 0xAA, 0x84, 0x1B] ++ List.replicate 27 0x01 ++ [0xFA]) 32))).bind
      (·.result) = some 1 := by decide

/-- PV16. -/
theorem test_rsp_get_factory_defaults :
    (nextOf (exec (.rspGetFactoryDefaults 7) (receiving defaultsFrame 12))).map (·.sensor) =
      some { State.reset.sensor with
        offset := { o0 := 1, o1 := 2, o2 := 3, o3 := 4 }, crosstalk := 0x0102, calibration := 3,
        responseReady := true } := by decide

/-- PV17, PV18: an illegal port byte is stored as received. -/
theorem test_rsp_get_product_info :
    (nextOf (exec (.rspGetProductInfo 3) (receiving infoFrame 8))).map (·.sensor) =
      some { State.reset.sensor with productType := 3, port := 1, firmware := 0x12, responseReady := true } ∧
    (nextOf (exec (.rspGetProductInfo 3) (receiving [0x55, 0xAA, 0x86, 0x03, 0x03, 0x07, 0x12, 0xFA] 8))).map
      (·.sensor.port) = some 7 := by decide

/-- PV13, PV14: an unsupported CMD fails. -/
theorem test_rsp_unsupported :
    nextOf (exec (.rspUnsupported 0x83 0) (receiving [0x55, 0xAA, 0x83, 0x00, 0xFA] 5)) =
      some { receiving [0x55, 0xAA, 0x83, 0x00, 0xFA] 0 with result := some 0 } := by decide

/-! ### Session -/

/-- SV1 to SV4, and the command rows they transmit. -/
theorem test_sends :
    [Instr.smeas, .sinfo, .sdef, .srst, .cmdMeasure, .cmdGetProductInfo, .cmdGetFactoryDefaults, .cmdReset].map
      (fun i => (nextOf (exec i State.reset)).map (fun s => (s.txOut, s.result))) =
    [0x81, 0x86, 0x85, 0x84, 0x81, 0x86, 0x85, 0x84].map
      (fun c => some ([0x55, 0xAA, c, 0x00, 0xFA], some 0)) := by decide

/-- SV5: a failed send halts. (What reached the wire is free, so it is not looked at.) -/
theorem test_send_fails :
    [Instr.smeas, .sinfo, .sdef, .srst, .cmdMeasure, .cmdGetProductInfo, .cmdGetFactoryDefaults, .cmdReset].map
      (fun i => haltOf (exec i (at_ 0 true false))) = List.replicate 8 (some .txFail) := by decide

/-- SV7, SV8: the distance stays, its fresh bit is read once. -/
theorem test_gdist :
    nextOf (exec .gdist decoded) =
      some { decoded with sensor := { decoded.sensor with distanceFresh := false }, result := some 0x0001012C } ∧
    (nextOf (exec .gdist { decoded with sensor := { decoded.sensor with distanceFresh := false } })).bind (·.result) =
      some 0x0000012C := by decide

/-- SV11, SV13, SV14, SV17: the plain accessors. -/
theorem test_plain_accessors :
    nextOf (exec .gerr decoded) = some { decoded with result := some 7 } ∧
    nextOf (exec .gfw decoded) = some { decoded with result := some 0x12 } ∧
    nextOf (exec .gptype decoded) = some { decoded with result := some 3 } ∧
    nextOf (exec .gxtalk decoded) = some { decoded with result := some 0x0102 } := by decide

/-- SV12, SV19. -/
theorem test_gport :
    nextOf (exec .gport decoded) = some { decoded with result := some 1 } ∧
    haltOf (exec .gport State.reset) = some .badPort := by
  decide

/-- SV15, SV21. -/
theorem test_gcal :
    nextOf (exec .gcal decoded) = some { decoded with result := some 3 } ∧
    haltOf (exec .gcal State.reset) = some .badCal := by
  decide

/-- SV16, SV18. -/
theorem test_gofs :
    [0, 1, 2, 3].map (fun j => (nextOf (exec (.gofs j) decoded)).bind (·.result)) = [some 1, some 2, some 3, some 4] ∧
    nextOf (exec (.gofs 4) decoded) = some (decoded.haltEntry .badOperand) := by decide

/-- SV25. -/
theorem test_grdy :
    nextOf (exec .grdy decoded) =
      some { decoded with sensor := { decoded.sensor with responseReady := false }, result := some 1 } := by decide

/-! ### Halts, reset and the step -/

/-- EV1, TV22: the halt's whole effect. -/
theorem test_illegal :
    nextOf (exec (.illegal 0x00) (receiving measureFrame 8)) =
      some { receiving measureFrame 8 with
        halt := { halted := true, cause := .illegalOp }
        receiver := { (receiving measureFrame 8).receiver with rxArmed := false } } := by decide

/-- EV6, RV11, EV7: a halted block is stuck, drops bytes, and leaves by the reset event. -/
theorem test_halted :
    faultOf (exec .dbheld haltedState) = some (.halted .badTimer) ∧
    nextOf (exec (.rx 0x44 true) haltedState) = some haltedState ∧
    faultOf (step haltedState) = some (.halted .badTimer) ∧
    (nextOf (step { haltedState with pending := [.reset] })).map (·.halt) =
      some { halted := false, cause := .noCause } := by decide

/-- EV8: a reset keeps what was sent. -/
theorem test_reset_keeps_txOut :
    (nextOf (step { decoded with pending := [.reset], txOut := [0x55, 0xAA, 0x81, 0x00, 0xFA] })).map
      (fun s => (s.txOut, s.sensor.port, s.sensor.distance)) = some ([0x55, 0xAA, 0x81, 0x00, 0xFA], 0xFF, 0) := by
  decide

/-- The interface places a row's bits where the next step runs them. -/
theorem test_withFetchWord :
    (nextOf (step (State.reset.withFetchWord 48 0x000000320001))).map (·.timers[0]?) =
      some (some { start := 0, duration := 50, running := true }) ∧
    (nextOf (step (State.reset.withFetchWord 40 0x55AA8100FA))).map (·.txOut) =
      some [0x55, 0xAA, 0x81, 0x00, 0xFA] ∧
    (nextOf (step (State.reset.withFetchWord 32 0x55AA8100))).bind (·.result) = some 0 := by decide

/-- The buffer's canonical form: a write of the reset contents removes the entry. -/
theorem test_memory_canonical :
    Memory.write (Memory.write [] 3 0x55) 3 0x00 = [] ∧
    Memory.write (Memory.write [] 5 0x11) 3 0x22 = [(3, 0x22), (5, 0x11)] ∧
    (receiving measureFrame 8).receiver.buf.wf = true := by decide

/-! ### Witnesses: every obligation's hypotheses are met by something -/

theorem witness_DecodeOfEncode :
    (Instr.illegal 0x00).WellFormed ∧ (Instr.rspMeasure 27).WellFormed ∧ (Instr.rspUnsupported 0x82 0).WellFormed ∧
    (Instr.gofs 255).WellFormed := by decide

/-- Also for `StepRunsPlacedInstruction`, at the boundary LEN. -/
theorem witness_StepRunsPlacedInstruction :
    (Instr.rspReset 27).WellFormed ∧ (Instr.rspReset 0).WellFormed ∧ (Instr.tinit 255 0xFFFFFFFF).WellFormed := by decide

theorem witness_IgnoredFieldsChangeNothing :
    (opField 0x21 = opField 0xFFFFFFFFFF21 ∧ opField 0x21 ∉ [0x01, 0x02, 0x03, 0x46]) ∧
    (opField 0x0102 = opField 0xFFFFFFFF0102 ∧ opField 0x0102 ∈ [0x02, 0x46] ∧
      selField 0x0102 = selField 0xFFFFFFFF0102) ∧
    (opField 0x000000320001 = 0x01 ∧ opField 0x0102 = 0x02 ∧ opField 0x000000140003 = 0x03 ∧
      opField 0x0346 = 0x46) := by decide

theorem witness_StepAppliesNextEvent :
    decode (.host 0x000000320001) = .ok (.tinit 0 50) ∧ State.reset.Live := by decide

/-- The duration at each clause's boundary: 0, 1, the largest accepted and the smallest rejected signed value. -/
theorem witness_DurationValidation :
    Config.spec.Ok ∧ signedCheck.Ok ∧ Config.spec.durCheckSigned = false ∧ signedCheck.durCheckSigned = true ∧
    (0 : Word).toNat % 2 ^ Config.spec.tickW = 0 ∧ (1 : Word).toNat % 2 ^ Config.spec.tickW ≠ 0 ∧
    2 ^ (signedCheck.tickW - 1) ≤ (0x80000000 : Word).toNat % 2 ^ signedCheck.tickW ∧
    (0x7FFFFFFF : Word).toNat % 2 ^ signedCheck.tickW < 2 ^ (signedCheck.tickW - 1) := by decide

/-- The first id past the timers, and the last timer, in both variants. -/
theorem witness_TimerInitResult :
    State.reset.Live ∧ State.reset.timers.length = State.reset.cfg.nTimers ∧
    State.reset.cfg.nTimers ≤ (2 : Byte).toNat ∧ (1 : Byte).toNat < State.reset.cfg.nTimers ∧
    State.reset.cfg.timerVariant = .armOnInit ∧ (withCfg lazyArm).Live ∧
    (withCfg lazyArm).timers.length = (withCfg lazyArm).cfg.nTimers ∧
    (withCfg lazyArm).cfg.timerVariant = .armOnFirstRead := by decide

/-- An idle timer, one that expires at this very tick, and one a tick before its expiry. -/
theorem witness_TimerReadResult :
    (State.reset.Live ∧ State.reset.timers.length = State.reset.cfg.nTimers ∧
      State.reset.cfg.nTimers ≤ (2 : Byte).toNat ∧ State.reset.timers[0]?.map (·.running) = some false) ∧
    (∀ s, s = timed { start := 1000, duration := 50, running := true } 1050 →
      s.Live ∧ s.timers.length = s.cfg.nTimers ∧ (50 : Tick).toNat ≤ (s.now - 1000).toNat % 2 ^ s.cfg.tickW) ∧
    ∀ s, s = timed { start := 1000, duration := 50, running := true } 1049 →
      s.Live ∧ s.timers.length = s.cfg.nTimers ∧ (s.now - 1000).toNat % 2 ^ s.cfg.tickW < (50 : Tick).toNat := by
  refine ⟨by decide, ?_, ?_⟩ <;> (rintro s rfl; decide)

/-- The three branches of a write. -/
theorem witness_TimerWriteResult :
    (State.reset.Live ∧ State.reset.timers.length = State.reset.cfg.nTimers ∧
      State.reset.cfg.nTimers ≤ (2 : Byte).toNat ∧ (1 : Byte).toNat < State.reset.cfg.nTimers ∧
      State.reset.cfg.timerVariant = .armOnInit ∧ State.reset.cfg.writeIdleArms = false) ∧
    ((withCfg lazyArm).Live ∧ (withCfg lazyArm).timers.length = (withCfg lazyArm).cfg.nTimers ∧
      (withCfg lazyArm).cfg.timerVariant = .armOnFirstRead) ∧
    ((withCfg idleArms).Live ∧ (withCfg idleArms).timers.length = (withCfg idleArms).cfg.nTimers ∧
      (withCfg idleArms).cfg.timerVariant = .armOnInit ∧ (withCfg idleArms).cfg.writeIdleArms = true ∧
      (withCfg idleArms).timers[1]?.map (·.running) = some false) := by decide

/-- Two states that agree on `T[1]`, the parameters and the tick, and nowhere else. -/
theorem witness_TimerIndependence :
    (1 : Byte).toNat < State.reset.timers.length ∧ (nextOf (exec (.tread 1) State.reset)).isSome = true ∧
    decoded.Live ∧ decoded.cfg = State.reset.cfg ∧ decoded.env.now = State.reset.env.now ∧
    decoded.timers[1]? = State.reset.timers[1]? ∧ decoded ≠ State.reset := by decide

/-- R121's reads, the second past the wrap of the counter. -/
theorem witness_TimerExpiryLaw :
    ∀ s, s = timed { start := 0xFFFFFFF0, duration := 0x20, running := true } 0 →
      s.Live ∧ s.cfg.Ok ∧
      s.timers[(0 : Byte).toNat]? = some { start := 0xFFFFFFF0, duration := 0x20, running := true } ∧
      (0xFFFFFFF0 : Tick).toNat = 0xFFFFFFF0 % 2 ^ s.cfg.tickW ∧ FitsTick s.cfg.tickW 0x20 ∧
      readsNearArming s.cfg.tickW (0x20 : Tick).toNat 0xFFFFFFF0 [0x10000000F, 0x100000010] := by
  rintro s rfl
  refine ⟨by decide, by decide, by decide, by decide, by decide, ?_⟩
  simp [readsNearArming, timed, at_, State.reset, State.resetWith, Config.spec]

/-- The reads for which R120's own premise holds and its conclusion does not (notes/assumptions/18.md). -/
theorem witness_TimerExpiryUnderReadGapsAlone :
    ∀ s, s = timed { start := 0, duration := 0xFFFFFFFF, running := true } 0 →
      s.Live ∧ s.cfg.Ok ∧ s.timers[(0 : Byte).toNat]? = some { start := 0, duration := 0xFFFFFFFF, running := true } ∧
      (0 : Tick).toNat = 0 % 2 ^ s.cfg.tickW ∧ FitsTick s.cfg.tickW 0xFFFFFFFF ∧
      readsNearEachOther s.cfg.tickW 0 [0xFFFFFFFE, 0x1FFFFFFFD] := by
  rintro s rfl
  refine ⟨by decide, by decide, by decide, by decide, by decide, ?_⟩
  simp [readsNearEachOther, timed, at_, State.reset, State.resetWith, Config.spec]

/-- Any state and pin can be had, with the timer expiring at this tick, one tick before, and idle: a case for each row of
R131. -/
theorem witness_DebounceTransitions :
    (∀ d pin, (debouncing d false { start := 500, duration := 40, running := true } 540 pin).Live ∧
      (debouncing d false { start := 500, duration := 40, running := true } 540 pin).debounce.dbState = d ∧
      (debouncing d false { start := 500, duration := 40, running := true } 540 pin).env.pin = pin) ∧
    (∀ s, s = debouncing .confirmingPress false { start := 500, duration := 40, running := true } 540 true →
      s.debounce.timer.running = true ∧
      s.debounce.timer.duration.toNat ≤ (s.now - s.debounce.timer.start).toNat % 2 ^ s.cfg.tickW) ∧
    (∀ s, s = debouncing .confirmingRelease true { start := 500, duration := 40, running := true } 539 true →
      s.debounce.timer.running = true ∧
      (s.now - s.debounce.timer.start).toNat % 2 ^ s.cfg.tickW < s.debounce.timer.duration.toNat) ∧
    (debouncing .confirmingPress false { start := 0, duration := 40, running := false } 0 true).debounce.timer.running =
      false := by
  refine ⟨fun d pin => ⟨rfl, rfl, rfl⟩, ?_, ?_, rfl⟩ <;> (rintro s rfl; decide)

/-- A block that is not halted: the one hypothesis of `PushedReadOnce`, `HeldLevelRead`, `FramePollReadOnce`,
`PlainAccessors`, `DistanceReadOnce` and `ReadyReadOnce`. -/
theorem witness_live : State.reset.Live ∧ decoded.Live := by decide

theorem witness_ReleasedReadOnce :
    State.reset.Live ∧ State.reset.cfg.hasReleaseEvent = true ∧ (withCfg noRelease).Live ∧
    (withCfg noRelease).cfg.hasReleaseEvent = false := by decide

theorem witness_OnlyUpdateMovesDebounce :
    (nextOf (exec .dbpush State.reset)).isSome = true ∧ Instr.dbpush ≠ .dbupd := by decide

/-- A press that waits at the tick of its start and one tick before its expiry, and is decided at its expiry. -/
theorem witness_PressConfirmation :
    State.reset.Live ∧ State.reset.cfg.Ok ∧ State.reset.debounce.dbState = .released ∧
    (∀ p ∈ [((500 : Nat), true), (539, false)], 500 ≤ p.1 ∧ p.1 - 500 < State.reset.cfg.debounceMs.toNat) ∧
    500 ≤ 540 ∧ State.reset.cfg.debounceMs.toNat ≤ 540 - 500 ∧ 540 - 500 < 2 ^ State.reset.cfg.tickW := by decide

theorem witness_ReleaseConfirmation :
    ∀ s, s = debouncing .pressed true { start := 0, duration := 40, running := true } 0 true →
      s.Live ∧ s.cfg.Ok ∧ s.debounce.dbState = .pressed ∧
      (∀ p ∈ [((800 : Nat), true), (839, false)], 800 ≤ p.1 ∧ p.1 - 800 < s.cfg.debounceMs.toNat) ∧
      800 ≤ 840 ∧ s.cfg.debounceMs.toNat ≤ 840 - 800 ∧ 840 - 800 < 2 ^ s.cfg.tickW := by
  rintro s rfl
  decide

/-- A halted block, a disarmed one, and an armed one with the index at 0, 31 and 32. -/
theorem witness_ReceiveByteResult :
    haltedState.halt.halted = true ∧ State.reset.receiver.rxArmed = false ∧
    ∀ idx ∈ [(0 : BitVec 6), 31, 32],
      (receiving measureFrame idx).Live ∧ (receiving measureFrame idx).receiver.rxArmed = true ∧
      (receiving measureFrame idx).receiver.idx.toNat ≤ 32 ∧ (receiving measureFrame idx).receiver.buf.wf = true := by
  decide

theorem witness_ReceiveArmResult :
    (at_ 0 true true).Live ∧ (at_ 0 true true).env.armOk = true ∧ (at_ 0 true false).Live ∧
    (at_ 0 true false).env.armOk = false := by decide

/-- A step that stores a byte, one on a full buffer, and a reset that clears one. -/
theorem witness_BufferWrittenOnlyByReceive :
    (nextOf (step { receiving [] 0 with pending := [.rx 0x55 true] })).map (·.receiver.buf.read 0) = some 0x55 ∧
    (nextOf (step { receiving [] 32 with pending := [.rx 0x55 true] })).map (·.receiver.buf.read 0) = some 0x55 ∧
    (receiving [] 32).receiver.buf.read 0 = 0x00 ∧
    (nextOf (step { receiving measureFrame 8 with pending := [.reset] })).map (·.receiver.buf.read 0) = some 0x00 ∧
    (receiving measureFrame 8).receiver.buf.read 0 = 0x55 := by decide

theorem witness_ReceiveTouchesOnlyReceiver :
    (nextOf (exec (.rx 0x55 true) (receiving [] 0))).isSome = true ∧
    (nextOf (exec (.rx 0x55 false) (receiving [] 0))).isSome = true := by decide

/-- A frame of one byte and one of 32. -/
theorem witness_CleanFrameReception :
    (receiving [] 0).Live ∧ (receiving [] 0).receiver.rxArmed = true ∧ (receiving [] 0).receiver.idx = 0 ∧
    (receiving [] 0).receiver.buf.wf = true ∧ ([] : List Byte).length + 1 ≤ 32 ∧
    (List.replicate 31 (0x11 : Byte)).length + 1 ≤ 32 ∧ (0xFA : Byte) ∉ List.replicate 31 0x11 := by decide

theorem witness_OverflowReception :
    (receiving [] 0).Live ∧ (receiving [] 0).receiver.rxArmed = true ∧ (receiving [] 0).receiver.idx = 0 ∧
    (receiving [] 0).receiver.buf.wf = true ∧ (List.replicate 32 (0x11 : Byte)).length = 32 ∧
    (0xFA : Byte) ∉ List.replicate 32 0x11 := by decide

/-- A buffer for each failure: both headers, LEN = 28, the terminator, an unsupported CMD, and each extent unmet by one. -/
theorem witness_ParseFailure :
    (receiving [0x54] 0).Live ∧ (receiving [0x54] 0).receiver.buf.read 0 ≠ 0x55 ∧
    (receiving [0x55, 0xAB] 0).receiver.buf.read 1 ≠ 0xAA ∧
    32 < ((receiving [0x55, 0xAA, 0x84, 0x1C] 0).receiver.buf.read 3).toNat + 5 ∧
    (receiving [0x55, 0xAA, 0x84, 0x00, 0xFB] 0).receiver.buf.read (4 + 0) ≠ 0xFA ∧
    (receiving [0x55, 0xAA, 0x82, 0x00, 0xFA] 0).receiver.buf.read 2 ∉ [0x81, 0x84, 0x85, 0x86] ∧
    lenChecked.decodeLenCheck = .atLeast ∧
    (receiving [0x55, 0xAA, 0x81, 0x02] 0).receiver.buf.read 2 = 0x81 ∧
    ((receiving [0x55, 0xAA, 0x81, 0x02] 0).receiver.buf.read 3).toNat < 3 ∧
    ((receiving [0x55, 0xAA, 0x85, 0x06] 0).receiver.buf.read 3).toNat < 7 ∧
    ((receiving [0x55, 0xAA, 0x86, 0x02] 0).receiver.buf.read 3).toNat < 3 := by decide

/-- LEN at the extent of the fields with the length checked, LEN = 0 without the check, and LEN = 27. -/
theorem witness_MeasureResponseDecoded :
    (receiving measureFrame 8).Live ∧ (3 : Byte).toNat + 5 ≤ 32 ∧
    (receiving measureFrame 8).receiver.buf.read (4 + (3 : Byte).toNat) = 0xFA ∧
    (3 ≤ (3 : Byte).toNat ∧ lenChecked.decodeLenCheck = .atLeast) ∧
    (receiving measureFrame 8).cfg.decodeLenCheck = .unchecked ∧
    (receiving [0x55, 0xAA, 0x81, 0x00, 0xFA] 5).receiver.buf.read (4 + (0 : Byte).toNat) = 0xFA ∧
    (receiving measureFrame 8).receiver.buf.read 0 = 0x55 ∧ (receiving measureFrame 8).receiver.buf.read 1 = 0xAA ∧
    (receiving measureFrame 8).receiver.buf.read 2 = 0x81 ∧ (receiving measureFrame 8).receiver.buf.read 3 = 3 := by
  decide

theorem witness_ResetResponseDecoded :
    ∀ s, s = receiving ([0x55, 0xAA, 0x84, 0x1B] ++ List.replicate 27 0x01 ++ [0xFA]) 32 →
      s.Live ∧ (27 : Byte).toNat + 5 ≤ 32 ∧ s.receiver.buf.read (4 + (27 : Byte).toNat) = 0xFA ∧
      s.receiver.buf.read 0 = 0x55 ∧ s.receiver.buf.read 1 = 0xAA ∧ s.receiver.buf.read 2 = 0x84 ∧
      s.receiver.buf.read 3 = 27 := by
  rintro s rfl
  decide

theorem witness_FactoryDefaultsResponseDecoded :
    ∀ s, s = receiving defaultsFrame 12 →
      s.Live ∧ (7 : Byte).toNat + 5 ≤ 32 ∧ s.receiver.buf.read (4 + (7 : Byte).toNat) = 0xFA ∧
      s.cfg.decodeLenCheck = .unchecked ∧ 7 ≤ (7 : Byte).toNat ∧ s.receiver.buf.read 0 = 0x55 ∧
      s.receiver.buf.read 1 = 0xAA ∧ s.receiver.buf.read 2 = 0x85 ∧ s.receiver.buf.read 3 = 7 := by
  rintro s rfl
  decide

theorem witness_ProductInfoResponseDecoded :
    ∀ s, s = receiving infoFrame 8 →
      s.Live ∧ (3 : Byte).toNat + 5 ≤ 32 ∧ s.receiver.buf.read (4 + (3 : Byte).toNat) = 0xFA ∧
      s.cfg.decodeLenCheck = .unchecked ∧ 3 ≤ (3 : Byte).toNat ∧ s.receiver.buf.read 0 = 0x55 ∧
      s.receiver.buf.read 1 = 0xAA ∧ s.receiver.buf.read 2 = 0x86 ∧ s.receiver.buf.read 3 = 3 := by
  rintro s rfl
  decide

theorem witness_UnsupportedResponseFails :
    (receiving [0x55, 0xAA, 0x82, 0x00, 0xFA] 5).Live ∧ (0x82 : Byte) ∉ [(0x81 : Byte), 0x84, 0x85, 0x86] ∧
    (receiving [0x55, 0xAA, 0x82, 0x00, 0xFA] 5).receiver.buf.read 2 = 0x82 := by decide

theorem witness_ResponseRowFailure :
    State.reset.Live ∧ 32 < (28 : Byte).toNat + 5 ∧ State.reset.receiver.buf.read (4 + (27 : Byte).toNat) ≠ 0xFA ∧
    (withCfg lenChecked).Live ∧ (withCfg lenChecked).cfg.decodeLenCheck = .atLeast ∧ (2 : Byte).toNat < 3 ∧
    (6 : Byte).toNat < 7 := by decide

theorem witness_ParseRunsBufferedResponse :
    decodeResponse ((List.range 4).map (Memory.read (receiving measureFrame 8).receiver.buf)) = .ok (.rspMeasure 3) := by
  decide

/-- Two states whose buffers differ only at index 31, which a parse of LEN = 3 does not read. -/
theorem witness_ParseReadsOnlyItsBytes :
    (receiving measureFrame 8).Live ∧
    ∀ s, s = receiving (measureFrame ++ List.replicate 23 0x00 ++ [0x77]) 2 →
      s.Live ∧ s.cfg = (receiving measureFrame 8).cfg ∧ s.sensor = (receiving measureFrame 8).sensor ∧
      (∀ a ≤ 10, (receiving measureFrame 8).receiver.buf.read a = s.receiver.buf.read a) ∧
      (receiving measureFrame 8).receiver.buf.read 7 = s.receiver.buf.read 7 ∧
      (receiving measureFrame 8).receiver.buf.read 31 ≠ s.receiver.buf.read 31 := by
  refine ⟨by decide, ?_⟩
  rintro s rfl
  decide

theorem witness_MeasureRoundTrip :
    (receiving [] 0).Live ∧ (receiving [] 0).receiver.rxArmed = true ∧ (receiving [] 0).receiver.idx = 0 ∧
    (receiving [] 0).receiver.buf.wf = true := by decide

theorem witness_SendOutcome :
    (at_ 0 true true).Live ∧ (at_ 0 true true).env.txOk = true ∧ (at_ 0 true false).Live ∧
    (at_ 0 true false).env.txOk = false := by decide

theorem witness_OnlyCommandFramesSent :
    (nextOf (step { State.reset with pending := [.host 0x30 State.reset.env] })).map (·.txOut) =
      some [0x55, 0xAA, 0x81, 0x00, 0xFA] := by decide

/-- The last index of the offsets, and the first past them. -/
theorem witness_OffsetRead :
    decoded.Live ∧
    [decoded.sensor.offset.o0, decoded.sensor.offset.o1, decoded.sensor.offset.o2,
      decoded.sensor.offset.o3][(3 : Byte).toNat]? = some 4 ∧
    4 ≤ (4 : Byte).toNat := by decide

/-- The largest legal code, and the smallest illegal one. -/
theorem witness_PortReadValidated :
    ∀ p ∈ [(2 : Byte), 3], ∀ s, s = { State.reset with sensor := { State.reset.sensor with port := p } } →
      s.Live ∧ (s.sensor.port.toNat ≤ 2 ↔ p = 2) ∧ (2 < s.sensor.port.toNat ↔ p = 3) := by
  intro p hp s hs
  subst hs
  revert p
  decide

theorem witness_CalibrationReadValidated :
    ∀ p ∈ [(3 : Byte), 4], ∀ s, s = { State.reset with sensor := { State.reset.sensor with calibration := p } } →
      s.Live ∧ (s.sensor.calibration.toNat ≤ 3 ↔ p = 3) ∧ (3 < s.sensor.calibration.toNat ↔ p = 4) := by
  intro p hp s hs
  subst hs
  revert p
  decide

theorem witness_ReadOnceReadsClear :
    State.reset.Live ∧ Instr.grdy ∈ [Instr.dbpush, .fpoll, .grdy] ∧ State.reset.cfg.hasReleaseEvent = true := by decide

theorem witness_UnassignedCodeHalts :
    State.reset.Live ∧ opField 0x000000000014 ∉ assignedOps ∧ (withCfg noRelease).Live ∧
    opField 0x000000000013 = 0x13 ∧ (withCfg noRelease).cfg.hasReleaseEvent = false := by decide

/-- Every cause is raised by something, from a block that runs (also for `HaltEntryEffect`). -/
theorem witness_HaltCauseTable :
    State.reset.Live ∧ (at_ 0 true false).Live ∧ (receiving [] 0).Live ∧ (withCfg noRelease).Live ∧
    haltOf (exec .smeas (at_ 0 true false)) = some .txFail ∧
    haltOf (exec .rxarm (at_ 0 true false)) = some .rxRearmFail ∧
    haltOf (exec (.rx 0x33 false) (receiving [] 0)) = some .rxRearmFail ∧
    haltOf (exec (.tread 2) State.reset) = some .badTimer ∧ haltOf (exec .gport State.reset) = some .badPort ∧
    haltOf (exec .gcal State.reset) = some .badCal ∧ haltOf (exec (.illegal 0x00) State.reset) = some .illegalOp ∧
    haltOf (exec .dbrel (withCfg noRelease)) = some .illegalOp ∧
    haltOf (exec (.gofs 4) State.reset) = some .badOperand := by decide

theorem witness_HaltedIsStuck :
    haltedState.halt.halted = true ∧ haltedState.pending = [] ∧
    { haltedState with pending := [.reset] }.pending = .reset :: [] := by decide

/-- A reset, and a byte that is dropped. -/
theorem witness_OnlyResetLeavesHalt :
    haltedState.halt.halted = true ∧ (nextOf (step { haltedState with pending := [.reset] })).isSome = true ∧
    (nextOf (step { haltedState with pending := [.rx 0x44 true] })).isSome = true := by decide

/-- A step that sets and a step that clears each flag of R23 outside the timers. -/
theorem witness_FlagWriters :
    (nextOf (exec .dbupd
        (debouncing .confirmingPress false { start := 500, duration := 40, running := true } 540 false))).map
      (fun s => (s.debounce.pushed, s.debounce.pressing)) = some (true, true) ∧
    (nextOf (exec .dbpush { State.reset with debounce := { State.reset.debounce with pushed := true } })).map
      (·.debounce.pushed) = some false ∧
    (nextOf (exec .dbupd
        (debouncing .confirmingRelease true { start := 800, duration := 40, running := true } 840 true))).map
      (fun s => (s.debounce.released, s.debounce.pressing)) = some (true, false) ∧
    (nextOf (exec .dbrel { State.reset with debounce := { State.reset.debounce with released := true } })).map
      (·.debounce.released) = some false ∧
    (nextOf (exec .dbupd (at_ 500 false true))).map (·.debounce.timer.running) = some true ∧
    (nextOf (exec .grdy decoded)).map (·.sensor.responseReady) = some false ∧
    (nextOf (exec .gdist decoded)).map (·.sensor.distanceFresh) = some false ∧
    (nextOf (exec .parse (receiving measureFrame 8))).map
      (fun s => (s.sensor.responseReady, s.sensor.distanceFresh)) = some (true, true) ∧
    (nextOf (exec (.rx 0xFA true) (receiving [] 0))).map (·.receiver.framePresent) = some true ∧
    (nextOf (exec .rxarm State.reset)).map (·.receiver.rxArmed) = some true ∧
    (nextOf (exec (.illegal 0x00) (receiving [] 0))).map (·.receiver.rxArmed) = some false := by decide

/-- `T[0].running` set by each of the three operations that may, and cleared by each of the two. -/
theorem witness_FlagWriters_timers :
    (∀ s ∈ [exec (.tinit 0 50) State.reset, exec (.tread 0) State.reset, exec (.twrite 0 50) (withCfg idleArms)],
      (nextOf s).map (fun t => t.timers[0]?.map (·.running)) = some (some true)) ∧
    State.reset.timers[0]?.map (·.running) = some false ∧
    ∀ i ∈ [Instr.tinit 0 50, .twrite 0 50],
      (nextOf (exec i { timed { start := 0, duration := 50, running := true } 0 with cfg := lazyArm })).map
        (fun t => t.timers[0]?.map (·.running)) = some (some false) := by decide

theorem witness_SensorWrittenOnlyByParse :
    (nextOf (exec .parse (receiving measureFrame 8))).map (·.sensor.distance) = some 300 ∧
    (nextOf (exec .grdy decoded)).map (·.sensor.distance) = some 300 := by decide

theorem witness_InputsReadOnlyWhereNamed :
    (nextOf (exec .fpoll State.reset)).isSome = true ∧
    Instr.fpoll ∉ [Instr.smeas, .sinfo, .sdef, .srst, .cmdMeasure, .cmdGetProductInfo, .cmdGetFactoryDefaults,
      .cmdReset] ∧ Instr.fpoll ≠ .rxarm ∧ Instr.fpoll ≠ .dbupd := by decide

theorem witness_ParametersNeverChange :
    (nextOf (step { decoded with pending := [.reset] })).map (·.cfg) = some Config.spec := by decide

/-- The invariant holds of the reset state, which is not halted (also for `StepKeepsInvariant`). -/
theorem witness_LiveStepCompletes :
    State.reset.Inv ∧ State.reset.Live ∧ nextOf (step State.reset) = some State.reset := by
  refine ⟨⟨?_, ?_, ?_, ?_, ?_, ?_, ?_, ?_, ?_, ?_, ?_, ?_⟩, ?_, ?_⟩ <;> decide

theorem witness_ResetHasInvariant : Config.spec.Ok ∧ lenChecked.Ok := by decide

end Sys2Proof.Tests
end

/-!
The family of spec/00_scope.md: which event a step applies (R6), which inputs an instruction reads (R7), the parameters
(R8, R9) and the state right after reset (R22, R40).
-/

namespace Sys2Proof

/-! ### What an encoding of each kind stands for -/

/-- An unassigned operation code is the row ILLEGAL (R85). -/
theorem decodeHost_of_unassigned {w : HostWord} (h : opField w ∉ assignedOps) : decodeHost w = .illegal (opField w) := by
  have hcode : (opField w).toNat ∉ assignedOps.map BitVec.toNat := by
    rwa [List.mem_map_of_injective fun _ _ => BitVec.eq_of_toNat_eq]
  unfold decodeHost
  split
  case h_24 => rfl
  all_goals
    rename_i hop
    rw [hop] at hcode
    exact absurd (by decide) hcode

/-- The host word a well-formed instruction is encoded as decodes to it: `op` selects the row, and the operands are the
fields `sel` and `arg` (R84, R85). -/
theorem decodeHost_of_encode {i : Instr} {w : HostWord} (hi : i.WellFormed) (h : encode i = .host w) :
    decodeHost w = i := by
  cases i <;> cases h
  case illegal op =>
    have hop : opField (hostWord op 0 0) ∉ assignedOps := by rwa [opField_hostWord]
    rw [decodeHost_of_unassigned hop, opField_hostWord]
  all_goals simp [decodeHost]

/-- The receive event an instruction is encoded as decodes to it (R87). -/
theorem decodeRx_of_encode {i : Instr} {v : BitVec 9} (h : encode i = .rx v) : decodeRx v = i := by
  cases i <;> cases h
  case rx b ok => simp [decodeRx]

/-- A response row is encoded as the header of its CMD and LEN, and that CMD selects the row (R92, R177, R184). -/
theorem eq_responseOf_of_encode {i : Instr} {bytes : List Byte} (hi : i.WellFormed) (h : encode i = .response bytes) :
    ∃ cmd len, bytes = responseHeader cmd len ∧ i = responseOf cmd len := by
  cases i <;> cases h
  case rspUnsupported cmd len =>
    obtain ⟨hcmd, -⟩ := hi
    exact ⟨cmd, len, rfl, by simp_all [responseOf, decodedCmds]⟩
  all_goals exact ⟨_, _, rfl, rfl⟩

end Sys2Proof

namespace Sys2Proof.Machine

/-! ### PARSE on a buffered header -/

/-- A response row runs the parser from the length check on, with the decoder its CMD selects (R177, R184). -/
theorem exec_responseOf (cmd len : Byte) (s : State) :
    exec (responseOf cmd len) s = hostOperation s (s.parseBody len (decodeByCmd cmd)) := by
  unfold responseOf
  split
  case isTrue h => subst h; rfl
  split
  case isTrue h => subst h; rfl
  split
  case isTrue h => subst h; rfl
  split
  case isTrue h => subst h; rfl
  case isFalse h1 h2 h3 h4 =>
    have hnone : decodeByCmd cmd = fun _ _ _ _ => none := by
      funext c l r x
      rw [decodeByCmd, if_neg h1, if_neg h2, if_neg h3, if_neg h4]
    rw [hnone]
    rfl

/-- PARSE on a buffer with both header bytes is the response row of its CMD and LEN (R171-R174). -/
theorem exec_parse_of_header {s : State} {cmd len : Byte} (h1 : s.receiver.memRead 0 = hdr1)
    (h2 : s.receiver.memRead 1 = hdr2) (hcmd : s.receiver.memRead 2 = cmd) (hlen : s.receiver.memRead 3 = len) :
    exec .parse s = exec (responseOf cmd len) s := by
  have hframe : s.parseFrame = s.parseBody len (decodeByCmd cmd) := by
    rw [State.parseFrame, if_neg (not_not.2 h1), if_neg (not_not.2 h2), hcmd, hlen]
  rw [exec_responseOf, ← hframe]
  rfl

/-- The bytes of a buffer that holds a response header and nothing else. -/
theorem memRead_responseHeader {r : Receiver} {cmd len : Byte} (h : r.buf = Memory.ofBytes 0 (responseHeader cmd len))
    (k : Fin frameMax) : r.memRead k = (responseHeader cmd len).getD k.val 0#8 := by
  have hread := Memory.read_ofBytes (responseHeader cmd len) (lo := 0) (by decide : 0 + 4 ≤ 32) k.val
  rwa [Nat.zero_add, ← h] at hread

/-! ### The next step of a state with an encoding placed -/

theorem step_place_host (s : State) (w : HostWord) :
    step (s.place (.host w)) = exec (decodeHost w) { s with result := none } := rfl

theorem step_place_rx (s : State) (v : BitVec 9) :
    step (s.place (.rx v)) = exec (decodeRx v) { s with result := none } := rfl

theorem step_place_response (s : State) (bytes : List Byte) :
    step (s.place (.response bytes)) =
      exec .parse { s with receiver := (s.place (.response bytes)).receiver, result := none } := rfl

/-- A placed command frame is a placed send (R201-R204), which transmits that frame (R91, R200). -/
theorem step_place_command {s : State} {i : Instr} {bytes : List Byte} (h : encode i = .command bytes) :
    step (s.place (.command bytes)) = exec i { s with result := none } := by
  cases i <;> cases h <;> rfl

/-- A command frame is placed without a change of the receiver. -/
theorem place_command_receiver (s : State) (bytes : List Byte) : (s.place (.command bytes)).receiver = s.receiver := by
  simp only [State.place]
  split <;> rfl

/-- Settles O6, by the kind of encoding: a host word and a receive event decode back to the instruction, a command frame
is its send, and a response header in the buffer is what PARSE reads. -/
theorem stepRunsPlacedInstruction : Obligations.StepRunsPlacedInstruction := by
  unfold Obligations.StepRunsPlacedInstruction
  intro i s hi
  cases hc : encode i with
  | host w => rw [step_place_host, decodeHost_of_encode hi hc]; rfl
  | rx v => rw [step_place_rx, decodeRx_of_encode hc]; rfl
  | command bytes => rw [step_place_command hc, place_command_receiver]
  | response bytes =>
    obtain ⟨cmd, len, rfl, rfl⟩ := eq_responseOf_of_encode hi hc
    have hbyte := memRead_responseHeader (r := (s.place (.response (responseHeader cmd len))).receiver) (cmd := cmd)
      (len := len) rfl
    rw [step_place_response]
    exact exec_parse_of_header (hbyte 0) (hbyte 1) (hbyte 2) (hbyte 3)

/-! ### The environment inputs an instruction reads -/

/-- The state with other environment inputs. -/
def State.withEnv (e : Env) (s : State) : State := { s with env := e }

@[simp] theorem State.withEnv_cfg (e : Env) (s : State) : (s.withEnv e).cfg = s.cfg := rfl
@[simp] theorem State.withEnv_receiver (e : Env) (s : State) : (s.withEnv e).receiver = s.receiver := rfl
@[simp] theorem State.withEnv_sensor (e : Env) (s : State) : (s.withEnv e).sensor = s.sensor := rfl
@[simp] theorem State.withEnv_halt (e : Env) (s : State) : (s.withEnv e).halt = s.halt := rfl
@[simp] theorem State.withEnv_env (e : Env) (s : State) : (s.withEnv e).env = e := rfl

/-- The outcome with other environment inputs in its next state. -/
def resultWithEnv (e : Env) : Result → Result
  | .next t => .next (t.withEnv e)
  | .fault r => .fault r
  | .refused r => .refused r

/-- The inputs `e'` agree with `e` on each input that the instruction names (R7). -/
structure AgreeOnInputsOf (i : Instr) (e e' : Env) : Prop where
  now : ((∀ k arg, i ≠ .tinit k arg ∧ i ≠ .tread k ∧ i ≠ .twrite k arg) ∧ i ≠ .dbupd) ∨ e'.now = e.now
  pin : i ≠ .dbupd ∨ e'.pin = e.pin
  txOk :
    i ∉ [Instr.smeas, .sinfo, .sdef, .srst, .cmdMeasure, .cmdGetProductInfo, .cmdGetFactoryDefaults, .cmdReset] ∨
      e'.txOk = e.txOk
  armOk : i ≠ .rxarm ∨ e'.armOk = e.armOk

/-- The tick depends on the parameters and on `now` alone (R7, R110). -/
theorem State.now_withEnv {s : State} {e : Env} (h : e.now = s.env.now) : (s.withEnv e).now = s.now :=
  congrArg (lowBits s.cfg.tickW) h

/-- The guard of the halted state reads no input. -/
theorem hostOperation_withEnv {s : State} {e : Env} {r r' : Result} (h : r' = resultWithEnv e r) :
    hostOperation (s.withEnv e) r' = resultWithEnv e (hostOperation s r) := by
  cases hh : s.halt.halted with
  | false => rw [hostOperation_live hh, hostOperation_live (s := s.withEnv e) hh, h]
  | true => rw [hostOperation_halted hh, hostOperation_halted (s := s.withEnv e) hh]; rfl

/-- Selecting a timer reads no input. -/
theorem State.onTimer_withEnv (s : State) (e : Env) (k : Byte) (f : Timer → Timer × Word) :
    (s.withEnv e).onTimer k f = resultWithEnv e (s.onTimer k f) := by
  cases hx : s.timers[k.toNat]? with
  | none => rw [State.onTimer_none f hx, State.onTimer_none (s := s.withEnv e) f hx]; rfl
  | some x => rw [State.onTimer_some f hx, State.onTimer_some (s := s.withEnv e) f hx]; rfl

/-- A send reads `txOk` alone (R200). -/
theorem State.sendFrame_withEnv {s : State} {e : Env} (frame : List Byte) (h : e.txOk = s.env.txOk) :
    (s.withEnv e).sendFrame frame = resultWithEnv e (s.sendFrame frame) := by
  rw [State.sendFrame, State.sendFrame, State.withEnv_env, h]
  split <;> rfl

/-- The receive event reads no input of a host event (R150). -/
theorem State.receiveByte_withEnv (s : State) (e : Env) (b : Byte) (ok : Bool) :
    (s.withEnv e).receiveByte b ok = resultWithEnv e (s.receiveByte b ok) := by
  rw [State.receiveByte, State.receiveByte, State.withEnv_halt, State.withEnv_receiver]
  split_ifs <;> rfl

/-- The parser reads no input (R171-R179). -/
theorem State.parseBody_withEnv (s : State) (e : Env) (len : Byte)
    (d : Config → Byte → Receiver → Sensor → Option Sensor) :
    (s.withEnv e).parseBody len d = resultWithEnv e (s.parseBody len d) := by
  rw [State.parseBody, State.parseBody, State.withEnv_receiver, State.withEnv_cfg, State.withEnv_sensor]
  split_ifs
  · cases d s.cfg len s.receiver s.sensor <;> rfl
  · rfl
  · rfl

theorem State.parseFrame_withEnv (s : State) (e : Env) :
    (s.withEnv e).parseFrame = resultWithEnv e s.parseFrame := by
  rw [State.parseFrame, State.parseFrame, State.withEnv_receiver]
  split_ifs
  · rfl
  · rfl
  · exact s.parseBody_withEnv e _ _

/-- An instruction does the same whatever the inputs are that it does not name (R7). -/
theorem exec_withEnv {i : Instr} {s : State} {e : Env} (h : AgreeOnInputsOf i s.env e) :
    exec i (s.withEnv e) = resultWithEnv e (exec i s) := by
  obtain ⟨hnow, hpin, htx, harm⟩ := h
  cases i with
  | tinit k arg =>
    have hn := State.now_withEnv (hnow.resolve_left fun ⟨htimer, _⟩ => (htimer k arg).1 rfl)
    simp only [exec, execTinit, hn]
    exact hostOperation_withEnv (s.onTimer_withEnv e k _)
  | tread k =>
    have hn := State.now_withEnv (hnow.resolve_left fun ⟨htimer, _⟩ => (htimer k 0).2.1 rfl)
    simp only [exec, execTread, hn]
    exact hostOperation_withEnv (s.onTimer_withEnv e k _)
  | twrite k arg =>
    have hn := State.now_withEnv (hnow.resolve_left fun ⟨htimer, _⟩ => (htimer k arg).2.2 rfl)
    simp only [exec, execTwrite, hn]
    exact hostOperation_withEnv (s.onTimer_withEnv e k _)
  | dbupd =>
    have hn := State.now_withEnv (hnow.resolve_left fun ⟨_, hdb⟩ => hdb rfl)
    have hp : (s.withEnv e).env.pin = s.env.pin := hpin.resolve_left fun h => h rfl
    simp only [exec, execDbupd, hn, hp]
    exact hostOperation_withEnv rfl
  | rxarm =>
    have ha : (s.withEnv e).env.armOk = s.env.armOk := harm.resolve_left fun h => h rfl
    simp only [exec, execRxarm, ha]
    refine hostOperation_withEnv ?_
    cases s.env.armOk <;> rfl
  | smeas | sinfo | sdef | srst | cmdMeasure | cmdGetProductInfo | cmdGetFactoryDefaults | cmdReset =>
    exact hostOperation_withEnv (State.sendFrame_withEnv _ (htx.resolve_left fun h => h (by decide)))
  | dbrel =>
    refine hostOperation_withEnv ?_
    rw [State.withEnv_cfg]
    split <;> rfl
  | gport | gcal =>
    refine hostOperation_withEnv ?_
    rw [State.withEnv_sensor]
    split <;> rfl
  | gofs k =>
    refine hostOperation_withEnv ?_
    rw [State.withEnv_sensor]
    cases s.sensor.offset.get? k <;> rfl
  | parse => exact hostOperation_withEnv (s.parseFrame_withEnv e)
  | rspMeasure len | rspReset len | rspGetFactoryDefaults len | rspGetProductInfo len | rspUnsupported _ len =>
    exact hostOperation_withEnv (s.parseBody_withEnv e len _)
  | rx b ok => exact s.receiveByte_withEnv e b ok
  | dbpush | dbheld | fpoll | gdist | gerr | gfw | gptype | gxtalk | grdy | illegal => exact hostOperation_withEnv rfl

/-- Settles O54: each part changes one input, and the instruction agrees on the other three. -/
theorem inputsReadOnlyWhereNamed : Obligations.InputsReadOnlyWhereNamed := by
  unfold Obligations.InputsReadOnlyWhereNamed
  intro i s t env h
  have key : ∀ e, AgreeOnInputsOf i s.env e → exec i (s.withEnv e) = .next (t.withEnv e) := fun e he => by
    rw [exec_withEnv he, h]; rfl
  exact ⟨fun htimer hdb => key _ ⟨.inl ⟨htimer, hdb⟩, .inr rfl, .inr rfl, .inr rfl⟩,
    fun hdb => key _ ⟨.inr rfl, .inl hdb, .inr rfl, .inr rfl⟩,
    fun hsend => key _ ⟨.inr rfl, .inr rfl, .inl hsend, .inr rfl⟩,
    fun harm => key _ ⟨.inr rfl, .inr rfl, .inr rfl, .inl harm⟩⟩

/-! ### The parameters -/

theorem State.onTimer_cfg {s t : State} {k : Byte} {f : Timer → Timer × Word} (h : s.onTimer k f = .next t) :
    t.cfg = s.cfg := by
  rcases State.onTimer_next h with ⟨-, rfl⟩ | ⟨x, -, rfl⟩ <;> rfl

theorem State.sendFrame_cfg {s t : State} {frame : List Byte} (h : s.sendFrame frame = .next t) : t.cfg = s.cfg := by
  rcases State.sendFrame_next h with ⟨-, rfl⟩ | ⟨-, rfl⟩ <;> rfl

theorem State.receiveByte_cfg {s t : State} {b : Byte} {ok : Bool} (h : s.receiveByte b ok = .next t) :
    t.cfg = s.cfg := by
  rcases State.receiveByte_next h with ⟨-, rfl⟩ | ⟨-, -, hi, ⟨-, rfl⟩ | ⟨-, rfl⟩⟩ <;> rfl

theorem State.parseBody_cfg {s t : State} {len : Byte} {d : Config → Byte → Receiver → Sensor → Option Sensor}
    (h : s.parseBody len d = .next t) : t.cfg = s.cfg := by
  rcases s.parseBody_cases len d with hf | ⟨x, -, -, -, hs⟩
  · rw [hf] at h; cases h; rfl
  · rw [hs] at h; cases h; rfl

theorem State.parseFrame_cfg {s t : State} (h : s.parseFrame = .next t) : t.cfg = s.cfg := by
  rcases s.parseFrame_cases with hf | ⟨x, -, hs⟩
  · rw [hf] at h; cases h; rfl
  · rw [hs] at h; cases h; rfl

/-- No instruction changes the parameters (R8). -/
theorem exec_cfg {i : Instr} {s t : State} (h : exec i s = .next t) : t.cfg = s.cfg := by
  cases i with
  | rx => exact State.receiveByte_cfg h
  | tinit | tread | twrite => exact State.onTimer_cfg (hostOperation_next h).2
  | smeas | sinfo | sdef | srst | cmdMeasure | cmdGetProductInfo | cmdGetFactoryDefaults | cmdReset =>
    exact State.sendFrame_cfg (hostOperation_next h).2
  | parse => exact State.parseFrame_cfg (hostOperation_next h).2
  | rspMeasure | rspReset | rspGetFactoryDefaults | rspGetProductInfo | rspUnsupported =>
    exact State.parseBody_cfg (hostOperation_next h).2
  | illegal | dbupd | dbpush | dbheld | fpoll | gdist | gerr | gfw | gptype | gxtalk | grdy =>
    obtain ⟨-, h⟩ := hostOperation_next h
    cases h
    rfl
  | dbrel | rxarm | gport | gcal | gofs =>
    obtain ⟨-, h⟩ := hostOperation_next h
    split at h <;> cases h <;> rfl

/-- Settles O55, by the four things a step can do. -/
theorem parametersNeverChange : Obligations.ParametersNeverChange := by
  unfold Obligations.ParametersNeverChange
  intro s t h
  rcases step_next h with ⟨-, -, rfl⟩ | ⟨w, env, rest, -, hx⟩ | ⟨b, ok, rest, -, hx⟩ | ⟨rest, -, rfl⟩
  · rfl
  · exact (exec_cfg hx).trans rfl
  · exact (exec_cfg hx).trans rfl
  · rfl

/-! ### The event a step applies, and the state after reset -/

/-- Settles O5, by what `State.fetch` takes off the list; a running block with nothing pending holds its state. -/
theorem stepAppliesNextEvent : Obligations.StepAppliesNextEvent := by
  unfold Obligations.StepAppliesNextEvent
  intro s rest
  refine ⟨fun w env i hdec => ?_, fun b ok => rfl, rfl, fun hlive => ?_⟩
  · cases hdec; rfl
  · exact hostOperation_live (s := { s with pending := [] }) hlive _

/-- Settles O58: the values are those `Config.spec` gives `State.resetWith`. -/
theorem resetStateValues : Obligations.ResetStateValues := by
  unfold Obligations.ResetStateValues
  exact ⟨rfl, rfl, rfl, Memory.read_nil, rfl, rfl, rfl, rfl, rfl, rfl, rfl⟩

/-- The reset state of parameters that meet R9 has the invariant of R40. -/
theorem State.resetWith_inv {c : Config} (hc : c.Ok) : (State.resetWith c).Inv := by
  have hfits : FitsTick c.tickW 0 := by simp [FitsTick]
  have ⟨_, _, _, _, hpos, hlt, _, _⟩ := hc
  exact {
    cfgOk := hc
    bufWf := rfl
    idxLe := Nat.zero_le _
    pressingLevel := by simp [State.resetWith]
    liveCause := fun _ => rfl
    haltedCause := nofun
    timerCount := List.length_replicate
    timersOk := fun x hx => by
      obtain rfl := List.eq_of_mem_replicate hx
      exact ⟨fun (h0 : c.defaultDuration = 0) => by simp [h0] at hpos, hlt, hfits⟩
    debounceDuration := rfl
    debounceStart := hfits
    debounceRuns := by simp [State.resetWith]
    noRelease := fun _ => rfl }

/-- Settles O59: the spec's own parameters are one choice that meets R9. -/
theorem resetHasInvariant : Obligations.ResetHasInvariant := by
  unfold Obligations.ResetHasInvariant
  exact ⟨State.resetWith_inv (by decide : Config.spec.Ok), fun _ hc => State.resetWith_inv hc⟩

end Sys2Proof.Machine

/-!
The family of spec/10_state.md: the invariant of R40, which every step keeps, who writes each flag (R23), the sensor
state (R32) and the receiver (R42), and that a running block's events complete.
-/

namespace Sys2Proof.Machine

/-! ### What a host operation can do -/

/-- What a timer operation makes of the timer `x = T[k]`: one case for each form of R115, R117 and R119. -/
inductive TimerChange (s : State) (k : Byte) (x : Timer) : Instr → Timer → Prop where
  | read : TimerChange s k x (.tread k) (timerRead s.cfg.tickW x s.now).1
  | initArms (arg : Word) (hv : s.cfg.timerVariant = .armOnInit) :
    TimerChange s k x (.tinit k arg) (timerArm s.now (validate s.cfg (durationOperand s.cfg arg)))
  | initIdles (arg : Word) (hv : s.cfg.timerVariant = .armOnFirstRead) :
    TimerChange s k x (.tinit k arg)
      { x with duration := validate s.cfg (durationOperand s.cfg arg), running := false }
  | writeIdles (arg : Word) (hv : s.cfg.timerVariant = .armOnFirstRead) :
    TimerChange s k x (.twrite k arg)
      { x with duration := validate s.cfg (durationOperand s.cfg arg), running := false }
  | writeArms (arg : Word) (hv : s.cfg.timerVariant = .armOnInit) (hw : s.cfg.writeIdleArms = true) :
    TimerChange s k x (.twrite k arg) (timerArm s.now (validate s.cfg (durationOperand s.cfg arg)))
  | writeDuration (arg : Word) (hv : s.cfg.timerVariant = .armOnInit) :
    TimerChange s k x (.twrite k arg) { x with duration := validate s.cfg (durationOperand s.cfg arg) }

/-- What DBUPD makes of the debounce state `d`: one case for each outcome of R131's rows, `waits` where `DT`
has not expired. -/
inductive DebounceMove (c : Config) (now : Tick) (d : Debounce) : Debounce → Prop where
  | stays : DebounceMove c now d d
  | startsPress (h : d.dbState = .released) :
    DebounceMove c now d { d with dbState := .confirmingPress, timer := timerArm now c.debounceMs }
  | startsRelease (h : d.dbState = .pressed) :
    DebounceMove c now d { d with dbState := .confirmingRelease, timer := timerArm now c.debounceMs }
  | waits : DebounceMove c now d { d with timer := (timerRead c.tickW d.timer now).1 }
  | dropsPress (h : d.dbState = .confirmingPress) :
    DebounceMove c now d { d with timer := (timerRead c.tickW d.timer now).1, dbState := .released }
  | confirmsPress (h : d.dbState = .confirmingPress) :
    DebounceMove c now d ({ d with timer := (timerRead c.tickW d.timer now).1 }.confirmPress)
  | dropsRelease (h : d.dbState = .confirmingRelease) :
    DebounceMove c now d { d with timer := (timerRead c.tickW d.timer now).1, dbState := .pressed }
  | confirmsRelease (h : d.dbState = .confirmingRelease) :
    DebounceMove c now d ({ d with timer := (timerRead c.tickW d.timer now).1 }.confirmRelease c.hasReleaseEvent)

/-- What an instruction other than RX can make of a running block `s`. A case names its instruction where a flag of R23 or
a decoded field is written. -/
inductive HostEffect (s : State) : Instr → State → Prop where
  | answers {i : Instr} (v : Word) : HostEffect s i { s with result := some v }
  | halts {i : Instr} {cause : HaltCause} (hc : cause ≠ .noCause) : HostEffect s i (s.haltEntry cause)
  | timer {i : Instr} {k : Byte} {x y : Timer} (v : Word) (hx : s.timers[k.toNat]? = some x)
      (hy : TimerChange s k x i y) :
    HostEffect s i { s with timers := s.timers.set k.toNat y, result := some v }
  | sends {i : Instr} (cmd : Byte) (hcmd : cmd ∈ decodedCmds) :
    HostEffect s i { s with txOut := s.txOut ++ commandFrame cmd, result := some 0 }
  | sendFails {i : Instr} (cmd : Byte) (hcmd : cmd ∈ decodedCmds) :
    HostEffect s i ({ s with
      txOut := s.txOut ++ (commandFrame cmd).take (Config.sentBeforeFailure s.draws).val
      draws := s.draws + 1 }.haltEntry .txFail)
  | debounces {d : Debounce} (hd : DebounceMove s.cfg s.now s.debounce d) :
    HostEffect s .dbupd { s with debounce := d, result := some 0 }
  | takesPushed (v : Word) : HostEffect s .dbpush { s with debounce := s.debounce.takePushed.1, result := some v }
  | takesReleased (v : Word) :
    HostEffect s .dbrel { s with debounce := s.debounce.takeReleased.1, result := some v }
  | arms (h : s.env.armOk = true) :
    HostEffect s .rxarm { s with receiver := { s.receiver with rxArmed := true }, result := some 0 }
  | takesFramePresent (v : Word) :
    HostEffect s .fpoll { s with receiver := s.receiver.takeFramePresent.1, result := some v }
  | parseFails {i : Instr} : HostEffect s i { s with receiver := { s.receiver with idx := 0 }, result := some 0 }
  | decodes {i : Instr} {cmd len : Byte} {x : Sensor} (hi : i = .parse ∨ i = responseOf cmd len)
      (hx : decodeByCmd cmd s.cfg len s.receiver s.sensor = some x) :
    HostEffect s i { s with
      receiver := { s.receiver with idx := 0 }, sensor := { x with responseReady := true }, result := some 1 }
  | takesDistanceFresh (v : Word) :
    HostEffect s .gdist { s with sensor := s.sensor.takeDistanceFresh.1, result := some v }
  | takesResponseReady (v : Word) :
    HostEffect s .grdy { s with sensor := s.sensor.takeResponseReady.1, result := some v }

theorem Debounce.update_move (c : Config) (now : Tick) (pin : Bool) (d : Debounce) :
    DebounceMove c now d (d.update c now pin) := by
  unfold Debounce.update
  split
  case h_1 h => split <;> [exact .stays; exact .startsPress h]
  case h_2 h => split <;> [exact .startsRelease h; exact .stays]
  case h_3 h =>
    split
    · split <;> [exact .dropsPress h; exact .confirmsPress h]
    · exact .waits
  case h_4 h =>
    split
    · split <;> [exact .confirmsRelease h; exact .dropsRelease h]
    · exact .waits

theorem timerWrite_change (s : State) (k : Byte) (arg : Word) (x : Timer) :
    TimerChange s k x (.twrite k arg) (timerWrite s.cfg s.now (validate s.cfg (durationOperand s.cfg arg)) x) := by
  unfold timerWrite
  split
  case h_1 hv => exact .writeIdles arg hv
  case h_2 hv =>
    split
    case isTrue hw => exact .writeArms arg hv (by simp_all)
    case isFalse => exact .writeDuration arg hv

theorem State.onTimer_effect {s : State} {i : Instr} {k : Byte} {f : Timer → Timer × Word}
    (hf : ∀ x, TimerChange s k x i (f x).1) : ∃ t, HostEffect s i t ∧ s.onTimer k f = .next t := by
  cases hx : s.timers[k.toNat]? with
  | none => exact ⟨_, .halts (by decide), State.onTimer_none f hx⟩
  | some x => exact ⟨_, .timer _ hx (hf x), State.onTimer_some f hx⟩

theorem State.sendCommand_effect {s : State} {i : Instr} {cmd : Byte} (hcmd : cmd ∈ decodedCmds) :
    ∃ t, HostEffect s i t ∧ s.sendFrame (commandFrame cmd) = .next t := by
  unfold State.sendFrame
  split
  · exact ⟨_, .sends cmd hcmd, rfl⟩
  · exact ⟨_, .sendFails cmd hcmd, rfl⟩

theorem State.parseBody_effect {s : State} {i : Instr} {cmd len : Byte} (hi : i = .parse ∨ i = responseOf cmd len) :
    ∃ t, HostEffect s i t ∧ s.parseBody len (decodeByCmd cmd) = .next t := by
  rcases s.parseBody_cases len (decodeByCmd cmd) with h | ⟨x, -, -, hx, h⟩
  · exact ⟨_, .parseFails, h⟩
  · exact ⟨_, .decodes hi hx, h⟩

theorem State.parseFrame_effect (s : State) : ∃ t, HostEffect s .parse t ∧ s.parseFrame = .next t := by
  rcases s.parseFrame_cases with h | ⟨x, hx, h⟩
  · exact ⟨_, .parseFails, h⟩
  · exact ⟨_, .decodes (.inl rfl) hx, h⟩

/-- An instruction whose effect behind the guard of R233 is one of those of `HostEffect`. -/
theorem exec_effect_of_guarded {i : Instr} {s : State} {effect : Result} (hexec : exec i s = hostOperation s effect)
    (heffect : ∃ t, HostEffect s i t ∧ effect = .next t) :
    ∃ t, HostEffect s i t ∧ exec i s = hostOperation s (.next t) := by
  obtain ⟨t, ht, rfl⟩ := heffect
  exact ⟨t, ht, hexec⟩

/-- Every instruction but RX is guarded by the halted state (R233), and on a running block it completes with one of the
effects of `HostEffect`. -/
theorem exec_effect (i : Instr) (s : State) (hrx : ∀ b ok, i ≠ .rx b ok) :
    ∃ t, HostEffect s i t ∧ exec i s = hostOperation s (.next t) := by
  cases i with
  | rx b ok => exact absurd rfl (hrx b ok)
  | tinit k arg =>
    refine exec_effect_of_guarded rfl (State.onTimer_effect fun x => ?_)
    split
    case h_1 hv => exact .initArms arg hv
    case h_2 hv => exact .initIdles arg hv
  | tread k => exact exec_effect_of_guarded rfl (State.onTimer_effect fun _ => .read)
  | twrite k arg => exact exec_effect_of_guarded rfl (State.onTimer_effect (timerWrite_change s k arg))
  | dbupd => exact ⟨_, .debounces (Debounce.update_move _ _ _ _), rfl⟩
  | dbpush => exact ⟨_, .takesPushed _, rfl⟩
  | dbrel =>
    refine exec_effect_of_guarded rfl ?_
    split
    · exact ⟨_, .takesReleased _, rfl⟩
    · exact ⟨_, .halts (by decide), rfl⟩
  | rxarm =>
    refine exec_effect_of_guarded rfl ?_
    split
    case isTrue h => exact ⟨_, .arms h, rfl⟩
    case isFalse => exact ⟨_, .halts (by decide), rfl⟩
  | fpoll => exact ⟨_, .takesFramePresent _, rfl⟩
  | gdist => exact ⟨_, .takesDistanceFresh _, rfl⟩
  | grdy => exact ⟨_, .takesResponseReady _, rfl⟩
  | dbheld | gerr | gfw | gptype | gxtalk => exact ⟨_, .answers _, rfl⟩
  | illegal => exact ⟨_, .halts (by decide), rfl⟩
  | gport | gcal | gofs =>
    refine exec_effect_of_guarded rfl ?_
    split
    · exact ⟨_, .answers _, rfl⟩
    · exact ⟨_, .halts (by decide), rfl⟩
  | smeas | cmdMeasure =>
    exact exec_effect_of_guarded rfl (State.sendCommand_effect (cmd := cmdMeasureCode) (by decide))
  | sinfo | cmdGetProductInfo =>
    exact exec_effect_of_guarded rfl (State.sendCommand_effect (cmd := cmdProductInfoCode) (by decide))
  | sdef | cmdGetFactoryDefaults =>
    exact exec_effect_of_guarded rfl (State.sendCommand_effect (cmd := cmdFactoryDefaultsCode) (by decide))
  | srst | cmdReset => exact exec_effect_of_guarded rfl (State.sendCommand_effect (cmd := cmdResetCode) (by decide))
  | parse => exact exec_effect_of_guarded rfl s.parseFrame_effect
  | rspMeasure len =>
    exact exec_effect_of_guarded (exec_responseOf cmdMeasureCode len s) (State.parseBody_effect (.inr rfl))
  | rspReset len =>
    exact exec_effect_of_guarded (exec_responseOf cmdResetCode len s) (State.parseBody_effect (.inr rfl))
  | rspGetFactoryDefaults len =>
    exact exec_effect_of_guarded (exec_responseOf cmdFactoryDefaultsCode len s) (State.parseBody_effect (.inr rfl))
  | rspGetProductInfo len =>
    exact exec_effect_of_guarded (exec_responseOf cmdProductInfoCode len s) (State.parseBody_effect (.inr rfl))
  | rspUnsupported cmd len =>
    refine exec_effect_of_guarded rfl ⟨_, .parseFails, ?_⟩
    rcases s.parseBody_cases len fun _ _ _ _ => none with h | ⟨x, -, -, hx, -⟩
    · exact h
    · cases hx

/-- An instruction that goes on is a receive event, or had one of the effects of `HostEffect` on a running block. -/
theorem exec_next {i : Instr} {s t : State} (h : exec i s = .next t) :
    (∃ b ok, i = .rx b ok ∧ s.receiveByte b ok = .next t) ∨ s.Live ∧ HostEffect s i t := by
  by_cases hrx : ∃ b ok, i = .rx b ok
  · obtain ⟨b, ok, rfl⟩ := hrx
    exact .inl ⟨b, ok, rfl, h⟩
  · obtain ⟨t', ht', he⟩ := exec_effect i s fun b ok hi => hrx ⟨b, ok, hi⟩
    obtain ⟨hlive, hnext⟩ := hostOperation_next (he.symm.trans h)
    cases hnext
    exact .inr ⟨hlive, ht'⟩

/-! ### The receive event -/

/-- Settles O25: the byte is dropped, or stored in the receiver, with a halt where the re-arm failed. -/
theorem receiveTouchesOnlyReceiver : Obligations.ReceiveTouchesOnlyReceiver := by
  unfold Obligations.ReceiveTouchesOnlyReceiver
  intro b ok s t h
  rcases State.receiveByte_next h with ⟨-, rfl⟩ | ⟨-, -, hi, ⟨-, rfl⟩ | ⟨-, rfl⟩⟩ <;> rfl

/-- A write index of at most 32 stores inside the buffer (R150). -/
theorem Receiver.storeIndex_lt {r : Receiver} (h : r.idx.toNat ≤ frameMax) : r.storeIndex < frameMax := by
  unfold Receiver.storeIndex
  split
  · decide
  · omega

/-- A store leaves the write index inside the range of R29. -/
theorem Receiver.storeByte_idx_le (r : Receiver) (i : Fin frameMax) (b : Byte) :
    (r.storeByte i b).idx.toNat ≤ frameMax := by
  rw [Receiver.storeByte_idx]
  split
  · exact Nat.zero_le _
  · exact i.isLt

/-! ### The invariant of the timers -/

theorem lowBits_fits {w : Nat} (h : w ≤ 32) (x : Tick) : FitsTick w (lowBits w x) := by
  rw [FitsTick, toNat_lowBits _ _ h]
  exact Nat.mod_lt _ (by positivity)

/-- The tick of an event has TICK_W bits (R7). -/
theorem State.now_fits {s : State} (hc : s.cfg.Ok) : FitsTick s.cfg.tickW s.now := by
  obtain ⟨-, hw, -⟩ := hc
  exact lowBits_fits hw _

theorem durationOperand_fits {c : Config} (hc : c.Ok) (arg : Word) : FitsTick c.tickW (durationOperand c arg) := by
  obtain ⟨-, hw, -⟩ := hc
  exact lowBits_fits hw arg

/-- A timer read leaves a start tick of TICK_W bits. -/
theorem timerRead_start_fits {w : Nat} {x : Timer} {now : Tick} (hx : FitsTick w x.start) (hnow : FitsTick w now) :
    FitsTick w (timerRead w x now).1.start := by
  rcases timerRead_start w x now with h | h
  · rwa [h]
  · rwa [h]

/-- What the invariant says of a timer's duration (R24, R40). -/
abbrev DurationOk (c : Config) (d : Tick) : Prop := d ≠ 0 ∧ FitsTick c.tickW d

/-- A validated duration is not 0 and has TICK_W bits (R111). -/
theorem validate_ok {c : Config} (hc : c.Ok) {d : Tick} (hd : FitsTick c.tickW d) : DurationOk c (validate c d) := by
  obtain ⟨-, -, -, -, hpos, hlt, -, -⟩ := hc
  have hdefault : DurationOk c c.defaultDuration := ⟨fun h0 => by simp [h0] at hpos, hlt⟩
  unfold validate
  split
  · exact hdefault
  · split
    · exact hdefault
    · exact ⟨‹_›, hd⟩

/-- A timer operation keeps a timer's part of the invariant. -/
theorem TimerChange.keeps {s : State} {k : Byte} {x y : Timer} {i : Instr} (h : TimerChange s k x i y) (hc : s.cfg.Ok)
    (hd : DurationOk s.cfg x.duration) (hs : FitsTick s.cfg.tickW x.start) :
    DurationOk s.cfg y.duration ∧ FitsTick s.cfg.tickW y.start := by
  have hv (arg : Word) : DurationOk s.cfg (validate s.cfg (durationOperand s.cfg arg)) :=
    validate_ok hc (durationOperand_fits hc arg)
  cases h with
  | read =>
    rw [timerRead_duration]
    exact ⟨hd, timerRead_start_fits hs (State.now_fits hc)⟩
  | initArms arg | writeArms arg => exact ⟨hv arg, State.now_fits hc⟩
  | initIdles arg | writeIdles arg | writeDuration arg => exact ⟨hv arg, hs⟩

/-! ### The invariant of the debounce state -/

/-- The debounce state's part of the invariant. -/
structure Debounce.Inv (c : Config) (d : Debounce) : Prop where
  pressingLevel : d.pressing = true ↔ d.dbState = .pressed ∨ d.dbState = .confirmingRelease
  duration : d.timer.duration = c.debounceMs
  start : FitsTick c.tickW d.timer.start
  runs : d.dbState = .confirmingPress ∨ d.dbState = .confirmingRelease → d.timer.running = true
  noRelease : c.hasReleaseEvent = false → d.released = false

theorem State.Inv.debounce {s : State} (h : s.Inv) : s.debounce.Inv s.cfg :=
  ⟨h.pressingLevel, h.debounceDuration, h.debounceStart, h.debounceRuns, h.noRelease⟩

theorem State.Inv.withDebounce {s : State} (h : s.Inv) {d : Debounce} (hd : d.Inv s.cfg) (v : Option Word) :
    State.Inv { s with debounce := d, result := v } :=
  { h with
    pressingLevel := hd.pressingLevel
    debounceDuration := hd.duration
    debounceStart := hd.start
    debounceRuns := hd.runs
    noRelease := hd.noRelease }

/-- A debounce update keeps the debounce state's part of the invariant (R27, R131, R132). -/
theorem DebounceMove.keeps {c : Config} {now : Tick} {d e : Debounce} (h : DebounceMove c now d e)
    (hnow : FitsTick c.tickW now) (hd : d.Inv c) : e.Inv c := by
  have hread : Debounce.Inv c { d with timer := (timerRead c.tickW d.timer now).1 } :=
    { hd with
      duration := (timerRead_duration _ _ _).trans hd.duration
      start := timerRead_start_fits hd.start hnow
      runs := fun _ => timerRead_running _ _ _ }
  have hlevel := hd.pressingLevel
  cases h with
  | stays => exact hd
  | waits => exact hread
  | startsPress hs | startsRelease hs =>
    exact { hd with
      pressingLevel := by simpa [hs] using hlevel
      duration := rfl
      start := hnow
      runs := fun _ => rfl }
  | dropsPress hs | dropsRelease hs =>
    exact { hread with
      pressingLevel := by simpa [hs] using hlevel
      runs := by simp }
  | confirmsPress hs =>
    exact { hread with
      pressingLevel := by simp
      runs := by simp }
  | confirmsRelease hs =>
    exact { hread with
      pressingLevel := by simp
      runs := by simp
      noRelease := fun hc => by simp [hd.noRelease hc, hc] }

/-! ### The invariant of the block -/

/-- Halt entry with a cause of R231 keeps the invariant. -/
theorem State.Inv.haltEntry {s : State} (h : s.Inv) {cause : HaltCause} (hc : cause ≠ .noCause) :
    (s.haltEntry cause).Inv :=
  { h with
    liveCause := nofun
    haltedCause := fun _ => ⟨hc, rfl⟩ }

/-- A store of a received byte keeps the invariant of a running block. -/
theorem State.Inv.storeByte {s : State} (h : s.Inv) (hlive : s.Live) (i : Fin frameMax) (b : Byte) :
    State.Inv { s with receiver := s.receiver.storeByte i b } :=
  { h with
    bufWf := by
      rw [Receiver.storeByte_buf]
      exact Receiver.memWrite_wf s.receiver i b h.bufWf
    idxLe := Receiver.storeByte_idx_le s.receiver i b
    haltedCause := fun hh => absurd hh (by simp [hlive]) }

theorem State.Inv.receiveByte {s t : State} {b : Byte} {ok : Bool} (h : s.Inv) (hr : s.receiveByte b ok = .next t) :
    t.Inv := by
  rcases State.receiveByte_next hr with ⟨-, rfl⟩ | ⟨hlive, -, hi, ⟨-, rfl⟩ | ⟨-, rfl⟩⟩
  · exact h
  · exact h.storeByte hlive _ b
  · exact (h.storeByte hlive _ b).haltEntry (by decide)

/-- What a host operation makes of a running block keeps the invariant. -/
theorem HostEffect.keeps {s t : State} {i : Instr} (he : HostEffect s i t) (hlive : s.Live) (h : s.Inv) : t.Inv := by
  cases he with
  | answers | sends | takesDistanceFresh | takesResponseReady | takesFramePresent => exact { h with }
  | halts hc => exact h.haltEntry hc
  | sendFails =>
    refine State.Inv.haltEntry ?_ (by decide)
    exact { h with }
  | timer v hx hy =>
    obtain ⟨hne, hfit, hstart⟩ := h.timersOk _ (List.mem_of_getElem? hx)
    obtain ⟨⟨hne', hfit'⟩, hstart'⟩ := hy.keeps h.cfgOk ⟨hne, hfit⟩ hstart
    exact { h with
      timerCount := (List.length_set ..).trans h.timerCount
      timersOk := fun z hz => by
        rcases List.mem_or_eq_of_mem_set hz with hz | rfl
        · exact h.timersOk z hz
        · exact ⟨hne', hfit', hstart'⟩ }
  | debounces hd => exact h.withDebounce (hd.keeps (State.now_fits h.cfgOk) h.debounce) _
  | takesPushed => exact h.withDebounce (d := s.debounce.takePushed.1) { h.debounce with } _
  | takesReleased =>
    exact h.withDebounce (d := s.debounce.takeReleased.1) { h.debounce with noRelease := fun _ => rfl } _
  | arms => exact { h with haltedCause := fun hh => absurd hh (by simp [hlive]) }
  | parseFails | decodes => exact { h with idxLe := Nat.zero_le _ }

/-- Every instruction keeps the invariant. -/
theorem exec_inv {i : Instr} {s t : State} (h : s.Inv) (hx : exec i s = .next t) : t.Inv := by
  rcases exec_next hx with ⟨b, ok, -, hr⟩ | ⟨hlive, he⟩
  · exact h.receiveByte hr
  · exact he.keeps hlive h

/-- Settles O60, by the four things a step can do: the fetch leaves every field the invariant speaks of, an instruction
keeps it (`exec_inv`), and a reset establishes it. -/
theorem stepKeepsInvariant : Obligations.StepKeepsInvariant := by
  unfold Obligations.StepKeepsInvariant
  intro s t h hstep
  rcases step_next hstep with ⟨-, -, rfl⟩ | ⟨w, env, rest, -, hx⟩ | ⟨b, ok, rest, -, hx⟩ | ⟨rest, -, rfl⟩
  · exact h
  · exact exec_inv (s := { s with pending := rest, env := env, result := none }) { h with } hx
  · exact exec_inv (s := { s with pending := rest, result := none }) { h with } hx
  · exact { State.resetWith_inv h.cfgOk with }

/-! ### Progress -/

/-- A running block takes a received byte whenever the write index is in the range of R29. -/
theorem State.receiveByte_completes {s : State} (h : s.receiver.idx.toNat ≤ frameMax) (b : Byte) (ok : Bool) :
    ∃ t, s.receiveByte b ok = .next t := by
  unfold State.receiveByte
  rw [dif_pos (Receiver.storeIndex_lt h)]
  split
  · exact ⟨_, rfl⟩
  · split <;> exact ⟨_, rfl⟩

/-- An instruction on a running block completes, a receive event where the write index is in the range of R29. -/
theorem exec_completes {s : State} (hlive : s.Live) (hidx : s.receiver.idx.toNat ≤ frameMax) (i : Instr) :
    ∃ t, exec i s = .next t := by
  by_cases hrx : ∃ b ok, i = .rx b ok
  · obtain ⟨b, ok, rfl⟩ := hrx
    exact State.receiveByte_completes hidx b ok
  · obtain ⟨t, -, he⟩ := exec_effect i s fun b ok hi => hrx ⟨b, ok, hi⟩
    exact ⟨t, he.trans (hostOperation_live hlive _)⟩

theorem hostOperation_ne_refused (s t : State) (r : Refusal) : hostOperation s (.next t) ≠ .refused r := by
  unfold hostOperation
  split <;> nofun

theorem State.receiveByte_ne_refused (s : State) (b : Byte) (ok : Bool) (r : Refusal) :
    s.receiveByte b ok ≠ .refused r := by
  unfold State.receiveByte
  split_ifs <;> nofun

/-- No instruction is refused: each has a meaning in the model. -/
theorem exec_ne_refused (i : Instr) (s : State) (r : Refusal) : exec i s ≠ .refused r := by
  by_cases hrx : ∃ b ok, i = .rx b ok
  · obtain ⟨b, ok, rfl⟩ := hrx
    exact s.receiveByte_ne_refused b ok r
  · obtain ⟨t, -, he⟩ := exec_effect i s fun b ok hi => hrx ⟨b, ok, hi⟩
    rw [he]
    exact hostOperation_ne_refused s t r

/-- Settles O56, by the oldest pending event: with none the block holds its state, a reset completes from anywhere, and
an instruction completes and is never refused. -/
theorem liveStepCompletes : Obligations.LiveStepCompletes := by
  unfold Obligations.LiveStepCompletes
  constructor
  · intro s h hlive
    unfold step State.fetch
    rcases s.pending with - | ⟨⟨w, env⟩ | ⟨b, ok⟩ | -, rest⟩
    · exact ⟨s, hostOperation_live hlive _⟩
    · exact exec_completes (s := { s with pending := rest, env := env, result := none }) hlive h.idxLe _
    · exact exec_completes (s := { s with pending := rest, result := none }) hlive h.idxLe _
    · exact ⟨_, rfl⟩
  · intro s r
    unfold step State.fetch
    rcases s.pending with - | ⟨⟨w, env⟩ | ⟨b, ok⟩ | -, rest⟩
    · exact hostOperation_ne_refused s s r
    · exact exec_ne_refused _ _ r
    · exact exec_ne_refused _ _ r
    · nofun

/-! ### Who writes the sensor state -/

/-- The rows that can decode a frame: PARSE, and the response rows whose CMD has a decoder (R177). -/
abbrev Instr.Decodes (i : Instr) : Prop :=
  i = .parse ∨ ∃ len, i ∈ [Instr.rspMeasure len, .rspReset len, .rspGetFactoryDefaults len, .rspGetProductInfo len]

/-- A decode that succeeds selected a decoder, and only the Measure response writes `distanceFresh` (R177, R180). -/
theorem decodeByCmd_some {cmd len : Byte} {c : Config} {r : Receiver} {x y : Sensor}
    (h : decodeByCmd cmd c len r x = some y) :
    Instr.Decodes (responseOf cmd len) ∧
    (y.distanceFresh = x.distanceFresh ∨ y.distanceFresh = true ∧ responseOf cmd len = .rspMeasure len) := by
  unfold decodeByCmd decodeMeasure decodeReset decodeFactoryDefaults decodeProductInfo at h
  split_ifs at h with hmeasure _ hreset _ hdefaults _ hinfo <;> cases h
  · subst hmeasure; exact ⟨.inr ⟨len, by simp [responseOf]⟩, .inr ⟨rfl, rfl⟩⟩
  · subst hreset; exact ⟨.inr ⟨len, by simp [responseOf]⟩, .inl rfl⟩
  · subst hdefaults; exact ⟨.inr ⟨len, by simp [responseOf]⟩, .inl rfl⟩
  · subst hinfo; exact ⟨.inr ⟨len, by simp [responseOf]⟩, .inl rfl⟩

/-- What an instruction makes of the sensor state: a read-once flag is taken, or a decode writes it (R32, R35, R36). -/
theorem exec_sensor {i : Instr} {s t : State} (h : exec i s = .next t) :
    t.sensor = s.sensor ∨
    (i = .gdist ∧ t.sensor = s.sensor.takeDistanceFresh.1) ∨
    (i = .grdy ∧ t.sensor = s.sensor.takeResponseReady.1) ∨
    ∃ cmd len x, (i = .parse ∨ i = responseOf cmd len) ∧
      decodeByCmd cmd s.cfg len s.receiver s.sensor = some x ∧ t.sensor = { x with responseReady := true } := by
  rcases exec_next h with ⟨b, ok, rfl, hr⟩ | ⟨-, he⟩
  · rw [receiveTouchesOnlyReceiver b ok s t hr]
    exact .inl rfl
  · cases he with
    | takesDistanceFresh => exact .inr (.inl ⟨rfl, rfl⟩)
    | takesResponseReady => exact .inr (.inr (.inl ⟨rfl, rfl⟩))
    | decodes hi hx => exact .inr (.inr (.inr ⟨_, _, _, hi, hx, rfl⟩))
    | _ => exact .inl rfl

/-- A row that decodes a frame is PARSE or a response row whose CMD has a decoder. -/
theorem decoding_row {i : Instr} {cmd len : Byte} {c : Config} {r : Receiver} {x y : Sensor}
    (hi : i = .parse ∨ i = responseOf cmd len) (hx : decodeByCmd cmd c len r x = some y) :
    Instr.Decodes i := by
  rcases hi with rfl | rfl
  · exact .inl rfl
  · exact (decodeByCmd_some hx).1

/-- Settles O53: taking a read-once flag leaves every decoded field. -/
theorem sensorWrittenOnlyByParse : Obligations.SensorWrittenOnlyByParse := by
  unfold Obligations.SensorWrittenOnlyByParse
  intro i s t h
  rcases exec_sensor h with heq | ⟨-, heq⟩ | ⟨-, heq⟩ | ⟨cmd, len, x, hi, hx, -⟩
  · rw [heq]; exact .inl rfl
  · rw [heq]; exact .inl rfl
  · rw [heq]; exact .inl rfl
  · exact .inr (decoding_row hi hx)

/-! ### Who writes each flag -/

/-- The writes of a one-bit state element, as the table of R23 gives them: `setBy` is the reason it goes from 0 to 1 and
`clearedBy` the reason it goes from 1 to 0. -/
structure FlagWrites (before after : Bool) (setBy clearedBy : Prop) : Prop where
  set : after = true → before = false → setBy
  clear : after = false → before = true → clearedBy

theorem FlagWrites.kept {before after : Bool} {setBy clearedBy : Prop} (h : after = before) :
    FlagWrites before after setBy clearedBy :=
  ⟨fun ha hb => by simp_all, fun ha hb => by simp_all⟩

theorem FlagWrites.sets {before after : Bool} {setBy clearedBy : Prop} (h : after = true) (hset : setBy) :
    FlagWrites before after setBy clearedBy :=
  ⟨fun _ _ => hset, fun ha _ => by simp_all⟩

theorem FlagWrites.clears {before after : Bool} {setBy clearedBy : Prop} (h : after = false) (hclear : clearedBy) :
    FlagWrites before after setBy clearedBy :=
  ⟨fun ha _ => by simp_all, fun _ _ => hclear⟩

/-- `responseReady` is set by a decode and cleared by GRDY (R35). -/
theorem exec_responseReady {i : Instr} {s t : State} (h : exec i s = .next t) :
    FlagWrites s.sensor.responseReady t.sensor.responseReady (Instr.Decodes i) (i = .grdy) := by
  rcases exec_sensor h with heq | ⟨-, heq⟩ | ⟨hi, heq⟩ | ⟨cmd, len, x, hi, hx, heq⟩ <;> rw [heq]
  · exact .kept rfl
  · exact .kept rfl
  · exact .clears rfl hi
  · exact .sets rfl (decoding_row hi hx)

/-- `distanceFresh` is set by a Measure decode and cleared by GDIST (R36). -/
theorem exec_distanceFresh {i : Instr} {s t : State} (h : exec i s = .next t) :
    FlagWrites s.sensor.distanceFresh t.sensor.distanceFresh (i = .parse ∨ ∃ len, i = .rspMeasure len)
      (i = .gdist) := by
  rcases exec_sensor h with heq | ⟨hi, heq⟩ | ⟨-, heq⟩ | ⟨cmd, len, x, hi, hx, heq⟩ <;> rw [heq]
  · exact .kept rfl
  · exact .clears rfl hi
  · exact .kept rfl
  · rcases (decodeByCmd_some hx).2 with hkept | ⟨hset, hrow⟩
    · exact .kept hkept
    · exact .sets hset (hi.imp_right fun hi => ⟨len, hi.trans hrow⟩)

/-- What an instruction makes of the debounce state: a latch is taken, or DBUPD runs a row of R131. -/
theorem exec_debounce {i : Instr} {s t : State} (h : exec i s = .next t) :
    t.debounce = s.debounce ∨
    (i = .dbpush ∧ t.debounce = s.debounce.takePushed.1) ∨
    (i = .dbrel ∧ t.debounce = s.debounce.takeReleased.1) ∨
    (i = .dbupd ∧ DebounceMove s.cfg s.now s.debounce t.debounce) := by
  rcases exec_next h with ⟨b, ok, rfl, hr⟩ | ⟨-, he⟩
  · rw [receiveTouchesOnlyReceiver b ok s t hr]
    exact .inl rfl
  · cases he with
    | takesPushed => exact .inr (.inl ⟨rfl, rfl⟩)
    | takesReleased => exact .inr (.inr (.inl ⟨rfl, rfl⟩))
    | debounces hd => exact .inr (.inr (.inr ⟨rfl, hd⟩))
    | _ => exact .inl rfl

/-- The flags after a DBUPD: only the two confirmations write them (R131). -/
theorem DebounceMove.flags {c : Config} {now : Tick} {d e : Debounce} (h : DebounceMove c now d e) :
    (e.pushed = d.pushed ∧ e.pressing = d.pressing ∧ e.released = d.released) ∨
    (d.dbState = .confirmingPress ∧ e.dbState = .pressed ∧
      e.pushed = true ∧ e.pressing = true ∧ e.released = d.released) ∨
    (d.dbState = .confirmingRelease ∧ e.dbState = .released ∧
      e.pushed = d.pushed ∧ e.pressing = false ∧ e.released = (d.released || c.hasReleaseEvent)) := by
  cases h with
  | confirmsPress hs => exact .inr (.inl ⟨hs, rfl, rfl, rfl, rfl⟩)
  | confirmsRelease hs => exact .inr (.inr ⟨hs, rfl, rfl, rfl, rfl⟩)
  | _ => exact .inl ⟨rfl, rfl, rfl⟩

/-- A DBUPD leaves `DT` alone or running. -/
theorem DebounceMove.timer {c : Config} {now : Tick} {d e : Debounce} (h : DebounceMove c now d e) :
    e.timer = d.timer ∨ e.timer.running = true := by
  cases h with
  | stays => exact .inl rfl
  | startsPress | startsRelease => exact .inr rfl
  | waits | dropsPress | confirmsPress | dropsRelease | confirmsRelease => exact .inr (timerRead_running _ _ _)

/-- `pushed` is set where a press is confirmed and cleared by DBPUSH (R27). -/
theorem exec_pushed {i : Instr} {s t : State} (h : exec i s = .next t) :
    FlagWrites s.debounce.pushed t.debounce.pushed
      (i = .dbupd ∧ s.debounce.dbState = .confirmingPress ∧ t.debounce.dbState = .pressed) (i = .dbpush) := by
  rcases exec_debounce h with heq | ⟨hi, heq⟩ | ⟨-, heq⟩ | ⟨hi, hm⟩
  · exact .kept (by rw [heq])
  · exact .clears (by rw [heq]; rfl) hi
  · exact .kept (by rw [heq]; rfl)
  · rcases hm.flags with ⟨hkept, -, -⟩ | ⟨hfrom, hto, hset, -, -⟩ | ⟨-, -, hkept, -, -⟩
    · exact .kept hkept
    · exact .sets hset ⟨hi, hfrom, hto⟩
    · exact .kept hkept

/-- `pressing` is set where a press is confirmed and cleared where a release is (R28). -/
theorem exec_pressing {i : Instr} {s t : State} (h : exec i s = .next t) :
    FlagWrites s.debounce.pressing t.debounce.pressing
      (i = .dbupd ∧ s.debounce.dbState = .confirmingPress ∧ t.debounce.dbState = .pressed)
      (i = .dbupd ∧ s.debounce.dbState = .confirmingRelease ∧ t.debounce.dbState = .released) := by
  rcases exec_debounce h with heq | ⟨-, heq⟩ | ⟨-, heq⟩ | ⟨hi, hm⟩
  · exact .kept (by rw [heq])
  · exact .kept (by rw [heq]; rfl)
  · exact .kept (by rw [heq]; rfl)
  · rcases hm.flags with ⟨-, hkept, -⟩ | ⟨hfrom, hto, -, hset, -⟩ | ⟨hfrom, hto, -, hclear, -⟩
    · exact .kept hkept
    · exact .sets hset ⟨hi, hfrom, hto⟩
    · exact .clears hclear ⟨hi, hfrom, hto⟩

/-- `released` is set where a release is confirmed, if there is a release event, and cleared by DBREL (R27). -/
theorem exec_released {i : Instr} {s t : State} (h : exec i s = .next t) :
    FlagWrites s.debounce.released t.debounce.released
      (i = .dbupd ∧ s.cfg.hasReleaseEvent = true ∧ s.debounce.dbState = .confirmingRelease ∧
        t.debounce.dbState = .released)
      (i = .dbrel) := by
  rcases exec_debounce h with heq | ⟨-, heq⟩ | ⟨hi, heq⟩ | ⟨hi, hm⟩
  · exact .kept (by rw [heq])
  · exact .kept (by rw [heq]; rfl)
  · exact .clears (by rw [heq]; rfl) hi
  · rcases hm.flags with ⟨-, -, hkept⟩ | ⟨-, -, -, -, hkept⟩ | ⟨hfrom, hto, -, -, hrel⟩
    · exact .kept hkept
    · exact .kept hkept
    · cases hc : s.cfg.hasReleaseEvent with
      | false => exact .kept (by rw [hrel, hc, Bool.or_false])
      | true => exact .sets (by rw [hrel, hc, Bool.or_true]) ⟨hi, rfl, hfrom, hto⟩

/-- Only DBUPD touches `DT`, and it never stops it (R132). -/
theorem exec_debounceTimer {i : Instr} {s t : State} (h : exec i s = .next t) :
    t.debounce.timer = s.debounce.timer ∨ i = .dbupd ∧ t.debounce.timer.running = true := by
  rcases exec_debounce h with heq | ⟨-, heq⟩ | ⟨-, heq⟩ | ⟨hi, hm⟩
  · exact .inl (by rw [heq])
  · exact .inl (by rw [heq]; rfl)
  · exact .inl (by rw [heq]; rfl)
  · exact hm.timer.imp_right fun hrun => ⟨hi, hrun⟩

/-- What an instruction makes of the host timers: a timer operation changes the one it selects. -/
theorem exec_timers {i : Instr} {s t : State} (h : exec i s = .next t) :
    t.timers = s.timers ∨
    ∃ (k : Byte) (x y : Timer), s.timers[k.toNat]? = some x ∧ TimerChange s k x i y ∧
      t.timers = s.timers.set k.toNat y := by
  rcases exec_next h with ⟨b, ok, rfl, hr⟩ | ⟨-, he⟩
  · rw [receiveTouchesOnlyReceiver b ok s t hr]
    exact .inl rfl
  · cases he with
    | timer v hx hy => exact .inr ⟨_, _, _, hx, hy, rfl⟩
    | _ => exact .inl rfl

/-- No instruction adds or removes a timer. -/
theorem exec_timers_length {i : Instr} {s t : State} (h : exec i s = .next t) : t.timers.length = s.timers.length := by
  rcases exec_timers h with heq | ⟨k, x, y, -, -, heq⟩ <;> rw [heq]
  exact List.length_set ..

/-- The rows that change the timer of an id. -/
theorem TimerChange.row {s : State} {k : Byte} {x y : Timer} {i : Instr} (h : TimerChange s k x i y) :
    i = .tread k ∨ ∃ arg, i = .tinit k arg ∨ i = .twrite k arg := by
  cases h with
  | read => exact .inl rfl
  | initArms arg | initIdles arg => exact .inr ⟨arg, .inl rfl⟩
  | writeIdles arg | writeArms arg | writeDuration arg => exact .inr ⟨arg, .inr rfl⟩

/-- `T[k].running` is set by TREAD and, under ARM_ON_INIT, by TINIT and by a TWRITE that arms; TINIT and TWRITE clear it
under ARM_ON_FIRST_READ (R24, R25). -/
theorem TimerChange.running {s : State} {k : Byte} {x y : Timer} {i : Instr} (h : TimerChange s k x i y) :
    FlagWrites x.running y.running
      (i = .tread k ∨ s.cfg.timerVariant = .armOnInit ∧
        ∃ arg, i = .tinit k arg ∨ i = .twrite k arg ∧ s.cfg.writeIdleArms = true)
      (s.cfg.timerVariant = .armOnFirstRead ∧ ∃ arg, i = .tinit k arg ∨ i = .twrite k arg) := by
  cases h with
  | read => exact .sets (timerRead_running _ _ _) (.inl rfl)
  | initArms arg hv => exact .sets rfl (.inr ⟨hv, arg, .inl rfl⟩)
  | initIdles arg hv => exact .clears rfl ⟨hv, arg, .inl rfl⟩
  | writeIdles arg hv => exact .clears rfl ⟨hv, arg, .inr rfl⟩
  | writeArms arg hv hw => exact .sets rfl (.inr ⟨hv, arg, .inr ⟨rfl, hw⟩⟩)
  | writeDuration => exact .kept rfl

/-- The timer `T[j]` after an instruction is the one before it, or the change its row makes of the id `j`. -/
theorem exec_timer {i : Instr} {s t : State} (h : exec i s = .next t) {j : Nat} {x y : Timer}
    (hx : s.timers[j]? = some x) (hy : t.timers[j]? = some y) :
    y = x ∨ ∃ k : Byte, k.toNat = j ∧ TimerChange s k x i y := by
  rcases exec_timers h with heq | ⟨k, x', y', hx', hc, heq⟩
  · rw [heq, hx] at hy
    cases hy
    exact .inl rfl
  · rw [heq, List.getElem?_set] at hy
    split at hy
    case isTrue hk =>
      subst hk
      rw [hx] at hx'
      cases hx'
      split at hy <;> cases hy
      exact .inr ⟨k, rfl, hc⟩
    case isFalse =>
      rw [hx] at hy
      cases hy
      exact .inl rfl

/-- `framePresent` is set by the receive of a terminator and cleared by FPOLL (R30). -/
theorem exec_framePresent {i : Instr} {s t : State} (h : exec i s = .next t) :
    FlagWrites s.receiver.framePresent t.receiver.framePresent (∃ ok, i = .rx term ok) (i = .fpoll) := by
  rcases exec_next h with ⟨b, ok, rfl, hr⟩ | ⟨-, he⟩
  · have hstore (k : Fin frameMax) :
        FlagWrites s.receiver.framePresent (s.receiver.storeByte k b).framePresent (∃ ok', Instr.rx b ok = .rx term ok')
          (Instr.rx b ok = .fpoll) := by
      by_cases hb : b = term
      · exact .sets (by simp [hb]) ⟨ok, by rw [hb]⟩
      · exact .kept (by rw [Receiver.storeByte_framePresent, decide_eq_false hb, Bool.or_false])
    rcases State.receiveByte_next hr with ⟨-, rfl⟩ | ⟨-, -, hi, ⟨-, rfl⟩ | ⟨-, rfl⟩⟩
    · exact .kept rfl
    · exact hstore _
    · exact hstore _
  · cases he with
    | takesFramePresent => exact .clears rfl rfl
    | _ => exact .kept rfl

/-- `rxArmed` is set by a successful RXARM and cleared by halt entry (R31, R232). -/
theorem exec_rxArmed {i : Instr} {s t : State} (h : exec i s = .next t) :
    FlagWrites s.receiver.rxArmed t.receiver.rxArmed (i = .rxarm ∧ s.env.armOk = true)
      (s.halt.halted = false ∧ t.halt.halted = true) := by
  rcases exec_next h with ⟨b, ok, rfl, hr⟩ | ⟨hlive, he⟩
  · rcases State.receiveByte_next hr with ⟨-, rfl⟩ | ⟨hlive, -, hi, ⟨-, rfl⟩ | ⟨-, rfl⟩⟩
    · exact .kept rfl
    · exact .kept (Receiver.storeByte_rxArmed _ _ _)
    · exact .clears rfl ⟨hlive, rfl⟩
  · cases he with
    | arms ha => exact .sets rfl ⟨rfl, ha⟩
    | halts | sendFails => exact .clears rfl ⟨hlive, rfl⟩
    | _ => exact .kept rfl

/-- No instruction changes the halt state of a halted block (R233). -/
theorem exec_halt_of_halted {i : Instr} {s t : State} (h : exec i s = .next t) (hh : s.halt.halted = true) :
    t.halt = s.halt := by
  rcases exec_next h with ⟨b, ok, rfl, hr⟩ | ⟨hlive, -⟩
  · rcases State.receiveByte_next hr with ⟨-, rfl⟩ | ⟨hlive, -⟩
    · rfl
    · simp [hlive] at hh
  · simp [hlive] at hh

/-- Settles O52, flag by flag. -/
theorem flagWriters : Obligations.FlagWriters := by
  unfold Obligations.FlagWriters
  intro i s t h
  refine ⟨(exec_pushed h).set, (exec_pushed h).clear, (exec_pressing h).set, (exec_pressing h).clear,
    (exec_released h).set, (exec_released h).clear, fun hne => ?_, fun hne => ?_, exec_timers_length h,
    fun j x y hx hy => ?_, (exec_framePresent h).set, (exec_framePresent h).clear, (exec_rxArmed h).set,
    (exec_rxArmed h).clear, (exec_responseReady h).set, (exec_responseReady h).clear, (exec_distanceFresh h).set,
    (exec_distanceFresh h).clear, exec_halt_of_halted h⟩
  · exact (exec_debounceTimer h).resolve_left fun heq => hne (by rw [heq])
  · obtain ⟨k, _, _, -, hc, -⟩ := (exec_timers h).resolve_left hne
    exact ⟨k, hc.row⟩
  · rcases exec_timer h hx hy with rfl | ⟨k, hk, hc⟩
    · exact ⟨fun hset hclear => by simp [hset] at hclear, fun hclear hset => by simp [hset] at hclear⟩
    · exact ⟨fun hset hold => ⟨k, hk, hc.running.set hset hold⟩,
        fun hclear hold => ⟨k, hk, hc.running.clear hclear hold⟩⟩

end Sys2Proof.Machine

/-!
The family of spec/20_memory.md: who writes a byte of the frame buffer (R68), and that a read-once read clears what it
reads (R66, R73).
-/

namespace Sys2Proof.Machine

/-! ### Who writes the frame buffer -/

/-- A store changes no byte but the one at its index. -/
theorem Receiver.storeByte_read_other (r : Receiver) (i : Fin frameMax) (b : Byte) {a : Nat} (h : a ≠ i.val) :
    (r.storeByte i b).buf.read a = r.buf.read a := by
  rw [Receiver.storeByte_buf]
  exact Memory.read_write_other r.buf i.val a b h

/-- A receive event that changes a byte came to a running armed block and stored at that byte's index (R150). -/
theorem State.receiveByte_stores_at {s t : State} {b : Byte} {ok : Bool} {a : Nat} (h : s.receiveByte b ok = .next t)
    (hne : t.receiver.buf.read a ≠ s.receiver.buf.read a) :
    s.Live ∧ s.receiver.rxArmed = true ∧ a = s.receiver.storeIndex := by
  rcases State.receiveByte_next h with ⟨-, rfl⟩ | ⟨hlive, harmed, hi, ht⟩
  · exact absurd rfl hne
  · refine ⟨hlive, harmed, ?_⟩
    by_contra ha
    have hkept := s.receiver.storeByte_read_other ⟨s.receiver.storeIndex, hi⟩ b ha
    rcases ht with ⟨-, rfl⟩ | ⟨-, rfl⟩ <;> exact hne hkept

/-- No host operation writes the frame buffer. -/
theorem HostEffect.buf {s t : State} {i : Instr} (h : HostEffect s i t) : t.receiver.buf = s.receiver.buf := by
  cases h <;> rfl

/-- An instruction that changes a byte of the buffer is a receive event on a running armed block that stores there. -/
theorem exec_writes_buf {i : Instr} {s t : State} {a : Nat} (h : exec i s = .next t)
    (hne : t.receiver.buf.read a ≠ s.receiver.buf.read a) :
    (∃ b ok, i = .rx b ok) ∧ s.Live ∧ s.receiver.rxArmed = true ∧ a = s.receiver.storeIndex := by
  rcases exec_next h with ⟨b, ok, hi, hr⟩ | ⟨-, he⟩
  · exact ⟨⟨b, ok, hi⟩, State.receiveByte_stores_at hr hne⟩
  · exact absurd (congrArg (Memory.read · a) he.buf) hne

/-- No host word is a receive event. -/
theorem decodeHost_ne_rx (w : HostWord) (b : Byte) (ok : Bool) : decodeHost w ≠ .rx b ok := by
  unfold decodeHost
  split <;> nofun

/-- Settles O24, by the event the step applies: of the instructions only a receive event writes the buffer, and a reset
leaves every byte 0. -/
theorem bufferWrittenOnlyByReceive : Obligations.BufferWrittenOnlyByReceive := by
  unfold Obligations.BufferWrittenOnlyByReceive
  intro s t a hstep hne
  rcases step_next hstep with ⟨-, -, rfl⟩ | ⟨w, env, rest, -, hx⟩ | ⟨b, ok, rest, hp, hx⟩ | ⟨rest, hp, rfl⟩
  · exact absurd rfl hne
  · obtain ⟨⟨b, ok, hrx⟩, -⟩ := exec_writes_buf hx hne
    exact absurd hrx (decodeHost_ne_rx w b ok)
  · obtain ⟨-, hlive, harmed, ha⟩ := exec_writes_buf hx hne
    exact .inl ⟨b, ok, rest, hp, hlive, harmed, ha⟩
  · exact .inr ⟨rest, hp, rfl⟩

/-! ### The read-once reads -/

@[simp] theorem bitWord_false : bitWord false = 0 := rfl

theorem exec_dbpush {s : State} (h : s.Live) :
    exec .dbpush s =
      .next { s with debounce := s.debounce.takePushed.1, result := some (bitWord s.debounce.pushed) } :=
  hostOperation_live h _

theorem exec_fpoll {s : State} (h : s.Live) :
    exec .fpoll s =
      .next { s with
        receiver := s.receiver.takeFramePresent.1, result := some (bitWord s.receiver.framePresent) } :=
  hostOperation_live h _

theorem exec_grdy {s : State} (h : s.Live) :
    exec .grdy s =
      .next { s with sensor := s.sensor.takeResponseReady.1, result := some (bitWord s.sensor.responseReady) } :=
  hostOperation_live h _

theorem exec_dbrel {s : State} (h : s.Live) (hrel : s.cfg.hasReleaseEvent = true) :
    exec .dbrel s =
      .next { s with debounce := s.debounce.takeReleased.1, result := some (bitWord s.debounce.released) } :=
  (hostOperation_live h _).trans (if_pos hrel)

/-- Settles O46, read by read: the first one leaves its flag clear and the block running, so the second one returns the
cleared flag. -/
theorem readOnceReadsClear : Obligations.ReadOnceReadsClear := by
  unfold Obligations.ReadOnceReadsClear
  intro s i hlive hi
  simp only [List.mem_cons, List.not_mem_nil, or_false] at hi
  rcases hi with (rfl | rfl | rfl) | ⟨rfl, hrel⟩
  · exact ⟨_, _, exec_dbpush hlive, exec_dbpush hlive, congrArg some bitWord_false⟩
  · exact ⟨_, _, exec_fpoll hlive, exec_fpoll hlive, congrArg some bitWord_false⟩
  · exact ⟨_, _, exec_grdy hlive, exec_grdy hlive, congrArg some bitWord_false⟩
  · exact ⟨_, _, exec_dbrel hlive hrel, exec_dbrel hlive hrel, congrArg some bitWord_false⟩

end Sys2Proof.Machine

/-!
The family of spec/30_encoding.md: decoding and encoding are inverse to each other, up to the ignored fields of a host
word (R82, R86), what the sends put on the wire (R91, R200), and the unassigned operation codes (R85).
-/

namespace Sys2Proof

/-! ### Decoding an encoding -/

/-- The command frame a command row is encoded as decodes to that row (R91). -/
theorem decodeCommand_of_encode {i : Instr} {bytes : List Byte} (h : encode i = .command bytes) :
    decodeCommand bytes = .ok i := by
  cases i <;> cases h
  case cmdMeasure | cmdGetProductInfo | cmdGetFactoryDefaults | cmdReset => rfl

/-- A response header whose LEN passes the length check decodes to the row of its CMD (R92, R174). -/
theorem decodeResponse_responseHeader (cmd : Byte) {len : Byte} (h : LenOk len) :
    decodeResponse (responseHeader cmd len) = .ok (responseOf cmd len) := by
  simp only [responseHeader, decodeResponse, ne_eq, not_true_eq_false, if_false, if_pos h]

/-- The row of a response header is well formed only where its LEN passes the length check (R93). -/
theorem lenOk_of_responseOf_wellFormed {cmd len : Byte} (h : (responseOf cmd len).WellFormed) : LenOk len := by
  unfold responseOf at h
  split_ifs at h
  case neg => exact h.2
  all_goals exact h

/-- The encoding of a well-formed instruction decodes to it, by the kind of encoding (R80, R87, R91, R92). -/
theorem decode_of_encode_eq {i : Instr} {c : Code} (hi : i.WellFormed) (h : encode i = c) : decode c = .ok i := by
  cases c with
  | host w => exact congrArg Except.ok (decodeHost_of_encode hi h)
  | rx v => exact congrArg Except.ok (decodeRx_of_encode h)
  | command bytes => exact decodeCommand_of_encode h
  | response bytes =>
    obtain ⟨cmd, len, rfl, rfl⟩ := eq_responseOf_of_encode hi h
    exact decodeResponse_responseHeader cmd (lenOk_of_responseOf_wellFormed hi)

/-- Settles O1: `decode_of_encode_eq` at the encoding itself. -/
theorem decodeOfEncode : Obligations.DecodeOfEncode := by
  unfold Obligations.DecodeOfEncode
  exact fun i hi => decode_of_encode_eq hi rfl

/-- Settles O4: each word of R91, R92 and R96 is the encoding of the instruction it is said to be. -/
theorem specWordsDecode : Obligations.SpecWordsDecode := by
  unfold Obligations.SpecWordsDecode
  refine ⟨?_, ?_, ?_, ?_, ?_, ?_, ?_, ?_, ?_⟩
  all_goals exact decode_of_encode_eq (by decide) rfl

/-! ### Encoding what a host word decodes to -/

/-- The codes that read `sel` are assigned (R82, R84). -/
theorem selOps_subset_assignedOps : ([0x01, 0x02, 0x03, 0x46] : List Byte) ⊆ assignedOps := by decide

/-- A code that reads `arg` reads `sel` as well (R82). -/
theorem argOps_subset_selOps : ([0x01, 0x03] : List Byte) ⊆ [0x01, 0x02, 0x03, 0x46] := by decide

/-- TREAD and GOFS do not read `arg` (R82). -/
theorem not_mem_argOps_of_selOnly : ∀ op ∈ ([0x02, 0x46] : List Byte), op ∉ ([0x01, 0x03] : List Byte) := by decide

/-- Settles O2. A word with an unassigned code keeps its code alone, and the rows of the assigned codes are taken one by
one. -/
theorem encodeOfDecodedHostWord : Obligations.EncodeOfDecodedHostWord := by
  unfold Obligations.EncodeOfDecodedHostWord
  intro w
  by_cases hop : opField w ∈ assignedOps
  · simp only [assignedOps, List.mem_cons, List.not_mem_nil, or_false] at hop
    rcases hop with h | h | h | h | h | h | h | h | h | h | h | h | h | h | h | h | h | h | h | h | h | h | h
    all_goals simp [decodeHost, h, encode, Instr.WellFormed]
  · have hsel : opField w ∉ [0x01, 0x02, 0x03, 0x46] := fun h => hop (selOps_subset_assignedOps h)
    have harg : opField w ∉ [0x01, 0x03] := fun h => hsel (argOps_subset_selOps h)
    rw [decodeHost_of_unassigned hop, if_neg hsel, if_neg harg]
    exact ⟨hop, rfl⟩

/-- Words whose decoded operations have the same encoding decode alike: what the encoding leaves out decides nothing. -/
theorem decodeHost_eq_of_encode_eq {w w' : HostWord} (h : encode (decodeHost w) = encode (decodeHost w')) :
    decodeHost w = decodeHost w' := by
  obtain ⟨hwf, -⟩ := encodeOfDecodedHostWord w
  obtain ⟨hwf', hw'⟩ := encodeOfDecodedHostWord w'
  exact (decodeHost_of_encode hwf (h.trans hw')).symm.trans (decodeHost_of_encode hwf' hw')

/-- Settles O3: ignored fields are 0 in the encoding of the decoded word, so words that differ in those alone have one
encoding. -/
theorem ignoredFieldsChangeNothing : Obligations.IgnoredFieldsChangeNothing := by
  unfold Obligations.IgnoredFieldsChangeNothing
  intro w w' hop
  obtain ⟨-, hw⟩ := encodeOfDecodedHostWord w
  obtain ⟨-, hw'⟩ := encodeOfDecodedHostWord w'
  refine ⟨fun hN => decodeHost_eq_of_encode_eq ?_, fun hI hsel => decodeHost_eq_of_encode_eq ?_,
    fun h => ?_, fun h => ?_, fun h => ?_, fun h => ?_⟩
  · have harg : opField w ∉ [0x01, 0x03] := fun h => hN (argOps_subset_selOps h)
    rw [hw, hw', ← hop, if_neg hN, if_neg harg, if_neg hN, if_neg harg]
  · have harg : opField w ∉ [0x01, 0x03] := not_mem_argOps_of_selOnly _ hI
    rw [hw, hw', ← hop, ← hsel, if_neg harg, if_neg harg]
  all_goals simp [decodeHost, h]

end Sys2Proof

namespace Sys2Proof.Machine

/-! ### The sends -/

theorem State.sendFrame_of_txOk {s : State} (frame : List Byte) (h : s.env.txOk = true) :
    s.sendFrame frame = .next { s with txOut := s.txOut ++ frame, result := some 0 } :=
  if_pos h

theorem State.sendFrame_of_not_txOk {s : State} (frame : List Byte) (h : s.env.txOk = false) :
    s.sendFrame frame = .next ({ s with
      txOut := s.txOut ++ frame.take (Config.sentBeforeFailure s.draws).val
      draws := s.draws + 1 }.haltEntry .txFail) :=
  if_neg (by simp [h])

/-- A row that runs the send primitive on the frame of `cmd` sends all of it, or at most five first bytes of it and
halts (R200). -/
theorem sendOutcome_of_guarded {i : Instr} {s : State} {cmd : Byte} (hlive : s.Live)
    (hexec : exec i s = hostOperation s (s.sendFrame (commandFrame cmd))) :
    (s.env.txOk = true → exec i s = .next { s with txOut := s.txOut ++ commandFrame cmd, result := some 0 }) ∧
    (s.env.txOk = false →
      ∃ n ≤ 5, exec i s = .next ({ s with
        txOut := s.txOut ++ (commandFrame cmd).take n, draws := s.draws + 1 }.haltEntry .txFail)) := by
  rw [hexec, hostOperation_live hlive]
  exact ⟨s.sendFrame_of_txOk _, fun h => ⟨_, Nat.le_of_lt_succ (Fin.is_lt _), s.sendFrame_of_not_txOk _ h⟩⟩

/-- Settles O38: each of the eight rows runs the send primitive on the frame of its CMD (R201-R204). -/
theorem sendOutcome : Obligations.SendOutcome := by
  unfold Obligations.SendOutcome
  intro s hlive p hp
  simp only [List.mem_cons, List.not_mem_nil, or_false] at hp
  rcases hp with rfl | rfl | rfl | rfl | rfl | rfl | rfl | rfl
  all_goals exact sendOutcome_of_guarded hlive rfl

/-! ### The unassigned operation codes -/

theorem exec_illegal {s : State} (h : s.Live) (op : Byte) : exec (.illegal op) s = .next (s.haltEntry .illegalOp) :=
  hostOperation_live h _

/-- Without a release event DBREL does what an unassigned code does (R85, R141). -/
theorem exec_dbrel_of_noRelease {s : State} (h : s.Live) (hrel : s.cfg.hasReleaseEvent = false) :
    exec .dbrel s = .next (s.haltEntry .illegalOp) :=
  (hostOperation_live h _).trans (if_neg (by simp [hrel]))

theorem decodeHost_of_dbrel {w : HostWord} (h : opField w = 0x13) : decodeHost w = .dbrel := by
  rw [decodeHost, h]
  rfl

/-- Settles O47: the word decodes to ILLEGAL, or to DBREL without a release event, and halt entry clears the result, so
it does not matter that the step had cleared it. -/
theorem unassignedCodeHalts : Obligations.UnassignedCodeHalts := by
  unfold Obligations.UnassignedCodeHalts
  intro s w env rest hlive
  refine ⟨fun hcode => ?_, exec_illegal hlive⟩
  have hrun : State.Live { s with pending := rest, env := env, result := none } := hlive
  obtain ⟨hhost, -⟩ := stepAppliesNextEvent s rest
  rcases hcode with hop | ⟨hop, hrel⟩
  · rw [hhost w env _ (congrArg Except.ok (decodeHost_of_unassigned hop))]
    exact exec_illegal hrun _
  · rw [hhost w env _ (congrArg Except.ok (decodeHost_of_dbrel hop))]
    exact exec_dbrel_of_noRelease hrun hrel

end Sys2Proof.Machine

/-!
The family of spec/40_timer.md: the validation of a duration (R111), the three timer operations (R115, R117, R119), that
each touches its own timer alone (R123), and the expiry law (R120, R121, R271).
-/

namespace Sys2Proof.Machine

/-! ### The validated duration -/

/-- The DUR_CHECK_SIGNED test looks at bit TICK_W-1 (R111). -/
theorem signBit_eq_decide {w : Nat} (hw : w ≤ 32) (x : Tick) :
    signBit w x = decide (2 ^ (w - 1) ≤ x.toNat % 2 ^ w) := by
  have hmsb : signBit w x = ((x.setWidth w).signExtend 32).msb := (BitVec.msb_eq_getLsbD_last _).symm
  rw [hmsb, BitVec.msb_eq_toInt, BitVec.toInt_signExtend_of_le hw, ← BitVec.msb_eq_toInt, BitVec.msb_eq_decide,
    BitVec.toNat_setWidth]

theorem validate_zero (c : Config) : validate c 0 = c.defaultDuration := if_pos rfl

/-- A rejected signed value is replaced, 0 or not. -/
theorem validate_of_signBit {c : Config} {d : Tick} (hc : c.durCheckSigned = true) (hd : signBit c.tickW d = true) :
    validate c d = c.defaultDuration := by
  unfold validate
  split
  · rfl
  · exact if_pos (by rw [hc, hd]; rfl)

/-- Any value but 0 and a rejected signed one is kept. -/
theorem validate_accepted {c : Config} {d : Tick} (hd : d ≠ 0)
    (hc : c.durCheckSigned = false ∨ signBit c.tickW d = false) : validate c d = d := by
  unfold validate
  rw [if_neg hd, if_neg]
  rcases hc with h | h <;> simp [h]

/-- Settles O7, by which of `validate`'s rejections the operand meets. -/
theorem durationValidation : Obligations.DurationValidation := by
  unfold Obligations.DurationValidation
  rintro c arg hc _ _ rfl rfl
  have ⟨_, hw, _⟩ := hc
  have hop : (durationOperand c arg).toNat = arg.toNat % 2 ^ c.tickW := toNat_lowBits _ _ hw
  have hsign : signBit c.tickW (durationOperand c arg) = decide (2 ^ (c.tickW - 1) ≤ arg.toNat % 2 ^ c.tickW) := by
    rw [signBit_eq_decide hw, hop, Nat.mod_mod]
  have hne : arg.toNat % 2 ^ c.tickW ≠ 0 → durationOperand c arg ≠ 0 := fun h h0 => h (by rw [← hop, h0]; rfl)
  refine ⟨fun h0 => ?_, fun hd hs => ?_, fun hs hle => ?_, fun hs hd hlt => ?_, ?_⟩
  · rw [BitVec.eq_of_toNat_eq (hop.trans h0) (y := 0), validate_zero]
  · rw [validate_accepted (hne hd) (.inl hs), hop]
  · rw [validate_of_signBit hs (hsign.trans (decide_eq_true hle))]
  · rw [validate_accepted (hne hd) (.inr (hsign.trans (decide_eq_false (Nat.not_le.2 hlt)))), hop]
  · exact fun h0 => (validate_ok hc (durationOperand_fits hc arg)).1 (BitVec.eq_of_toNat_eq h0)

/-! ### The timer operations on a running block -/

/-- What TINIT makes of a timer: armed from now or, in the variant that arms on the first read, idle (R115). -/
def timerInit (c : Config) (now d : Tick) (x : Timer) : Timer :=
  match c.timerVariant with
  | .armOnInit => timerArm now d
  | .armOnFirstRead => { x with duration := d, running := false }

theorem timerInit_armOnInit {c : Config} (h : c.timerVariant = .armOnInit) (now d : Tick) (x : Timer) :
    timerInit c now d x = timerArm now d := by
  rw [timerInit, h]

theorem timerInit_armOnFirstRead {c : Config} (h : c.timerVariant = .armOnFirstRead) (now d : Tick) (x : Timer) :
    timerInit c now d x = { x with duration := d, running := false } := by
  rw [timerInit, h]

theorem timerWrite_armOnFirstRead {c : Config} (h : c.timerVariant = .armOnFirstRead) (now d : Tick) (x : Timer) :
    timerWrite c now d x = { x with duration := d, running := false } := by
  rw [timerWrite, h]

theorem timerWrite_idleArms {c : Config} {x : Timer} (h : c.timerVariant = .armOnInit) (hx : x.running = false)
    (hw : c.writeIdleArms = true) (now d : Tick) : timerWrite c now d x = timerArm now d := by
  simp [timerWrite, h, hx, hw, timerArm]

theorem timerWrite_keepsStart {c : Config} {x : Timer} (h : c.timerVariant = .armOnInit)
    (hx : x.running = true ∨ c.writeIdleArms = false) (now d : Tick) :
    timerWrite c now d x = { x with duration := d } := by
  rcases hx with hx | hx <;> simp [timerWrite, h, hx]

theorem exec_tinit (k : Byte) (arg : Word) (s : State) :
    exec (.tinit k arg) s =
      hostOperation s (s.onTimer k fun x =>
        (timerInit s.cfg s.now (validate s.cfg (durationOperand s.cfg arg)) x, 0)) := by
  cases h : s.cfg.timerVariant with
  | armOnInit => simp only [timerInit_armOnInit h, exec, execTinit, h]
  | armOnFirstRead => simp only [timerInit_armOnFirstRead h, exec, execTinit, h]

theorem exec_tread (k : Byte) (s : State) :
    exec (.tread k) s =
      hostOperation s (s.onTimer k fun x =>
        ((timerRead s.cfg.tickW x s.now).1, bitWord (timerRead s.cfg.tickW x s.now).2)) := rfl

theorem exec_twrite (k : Byte) (arg : Word) (s : State) :
    exec (.twrite k arg) s =
      hostOperation s (s.onTimer k fun x =>
        (timerWrite s.cfg s.now (validate s.cfg (durationOperand s.cfg arg)) x, 0)) := rfl

/-- An id past the timers halts a running block (R83). -/
theorem hostOperation_onTimer_past {s : State} {k : Byte} (hlive : s.Live) (hk : s.timers.length ≤ k.toNat)
    (f : Timer → Timer × Word) : hostOperation s (s.onTimer k f) = .next (s.haltEntry .badTimer) := by
  rw [hostOperation_live hlive, State.onTimer_none f (List.getElem?_eq_none hk)]

/-- On a running block a timer operation does its effect on the timer it selects. -/
theorem hostOperation_onTimer_some {s : State} {k : Byte} {x y : Timer} {v : Word} (hlive : s.Live)
    (hx : s.timers[k.toNat]? = some x) {f : Timer → Timer × Word} (hf : f x = (y, v)) :
    hostOperation s (s.onTimer k f) = .next { s with timers := s.timers.set k.toNat y, result := some v } := by
  rw [hostOperation_live hlive, State.onTimer_some f hx, hf]

/-- Settles O8, by the id and the variant. -/
theorem timerInitResult : Obligations.TimerInitResult := by
  unfold Obligations.TimerInitResult
  intro k arg s hlive hlen
  rw [← hlen, exec_tinit]
  refine ⟨fun hk => hostOperation_onTimer_past hlive hk _, fun hk => ?_⟩
  have hx := List.getElem?_eq_getElem hk
  refine ⟨_, hx, ?_⟩
  rintro _ rfl
  exact ⟨fun hv => hostOperation_onTimer_some hlive hx (by rw [timerInit_armOnInit hv, timerArm]),
    fun hv => hostOperation_onTimer_some hlive hx (by rw [timerInit_armOnFirstRead hv])⟩

/-- Settles O10, by the id, the variant and whether the timer is armed. -/
theorem timerWriteResult : Obligations.TimerWriteResult := by
  unfold Obligations.TimerWriteResult
  intro k arg s hlive hlen
  rw [← hlen, exec_twrite]
  refine ⟨fun hk => hostOperation_onTimer_past hlive hk _, fun hk => ?_⟩
  have hx := List.getElem?_eq_getElem hk
  refine ⟨_, hx, ?_⟩
  rintro _ rfl
  exact ⟨fun hv => hostOperation_onTimer_some hlive hx (by rw [timerWrite_armOnFirstRead hv]),
    fun hv hidle hw => hostOperation_onTimer_some hlive hx (by rw [timerWrite_idleArms hv hidle hw, timerArm]),
    fun hv hkeep => hostOperation_onTimer_some hlive hx (by rw [timerWrite_keepsStart hv hkeep])⟩

/-! ### A timer read -/

/-- The elapsed time is taken modulo 2^TICK_W (R112), also for a tick width past the 32 bits a tick is held in. -/
theorem toNat_elapsed (w : Nat) (start now : Tick) : (elapsed w start now).toNat = (now - start).toNat % 2 ^ w := by
  rcases le_total w 32 with hw | hw
  · exact toNat_lowBits _ _ hw
  · have hlt : (now - start).toNat < 2 ^ w := lt_of_lt_of_le (BitVec.isLt _) (Nat.pow_le_pow_right (by decide) hw)
    rw [elapsed, lowBits, BitVec.setWidth_setWidth_of_le _ hw, BitVec.setWidth_eq, Nat.mod_eq_of_lt hlt]

theorem timerRead_idle {x : Timer} (hx : x.running = false) (w : Nat) (now : Tick) :
    timerRead w x now = ({ x with start := now, running := true }, false) := by
  rw [timerRead, hx]
  rfl

/-- A read of a running timer reports expiry and restarts the timer where the elapsed time has reached the duration, and
else changes nothing (R113). -/
theorem timerRead_of_running {x : Timer} (hx : x.running = true) (w : Nat) (now : Tick) :
    timerRead w x now =
      if x.duration.toNat ≤ (now - x.start).toNat % 2 ^ w then ({ x with start := now }, true) else (x, false) := by
  rw [timerRead, if_pos hx]
  simp only [BitVec.le_def, toNat_elapsed]

@[simp] theorem bitWord_true : bitWord true = 1 := rfl

/-- Settles O9, by the id and the three cases of the read primitive. -/
theorem timerReadResult : Obligations.TimerReadResult := by
  unfold Obligations.TimerReadResult
  intro k s hlive hlen
  rw [← hlen, exec_tread]
  refine ⟨fun hk => hostOperation_onTimer_past hlive hk _, fun hk => ?_⟩
  have hx := List.getElem?_eq_getElem hk
  refine ⟨_, hx, fun hidle => ?_, fun hrun hexp => ?_, fun hrun hwait => ?_⟩
  · exact hostOperation_onTimer_some hlive hx (by rw [timerRead_idle hidle, bitWord_false])
  · exact hostOperation_onTimer_some hlive hx (by rw [timerRead_of_running hrun, if_pos hexp, bitWord_true])
  · rw [hostOperation_onTimer_some hlive hx (by rw [timerRead_of_running hrun, if_neg (Nat.not_le.2 hwait)]),
      List.set_getElem_self hk, bitWord_false]

/-! ### Independence of the timers -/

/-- What a timer operation on `T[k]` does is a function of the parameters, the tick and `T[k]`. -/
theorem exec_timerOp {k : Byte} {i : Instr} (hi : i = .tread k ∨ ∃ arg, i = .tinit k arg ∨ i = .twrite k arg) :
    ∃ f : Config → Tick → Timer → Timer × Word, ∀ s, exec i s = hostOperation s (s.onTimer k (f s.cfg s.now)) := by
  rcases hi with rfl | ⟨arg, rfl | rfl⟩
  · exact ⟨fun c now x => ((timerRead c.tickW x now).1, bitWord (timerRead c.tickW x now).2), exec_tread k⟩
  · exact ⟨fun c now x => (timerInit c now (validate c (durationOperand c arg)) x, 0), exec_tinit k arg⟩
  · exact ⟨fun c now x => (timerWrite c now (validate c (durationOperand c arg)) x, 0), exec_twrite k arg⟩

/-- Settles O11: both states run the same function of `T[k]` (`exec_timerOp`) and write what it gives at the id `k`. -/
theorem timerIndependence : Obligations.TimerIndependence := by
  unfold Obligations.TimerIndependence
  intro k i s t hi hk h
  obtain ⟨f, hf⟩ := exec_timerOp hi
  obtain ⟨-, ht⟩ := hostOperation_next ((hf s).symm.trans h)
  rcases State.onTimer_next ht with ⟨hnone, -⟩ | ⟨x, hx, rfl⟩
  · exact absurd (List.getElem?_eq_none_iff.1 hnone) (Nat.not_le.2 hk)
  · refine ⟨rfl, fun j hj => List.getElem?_set_ne (Ne.symm hj), fun s' hlive hcfg hnow hk' => ?_⟩
    have hx' : s'.timers[k.toNat]? = some x := hk'.trans hx
    have hsame : f s'.cfg s'.now = f s.cfg s.now := by rw [State.now, State.now, hcfg, hnow]
    have hlen' := (List.getElem?_eq_some_iff.1 hx').1
    refine ⟨_, (hf s').trans (hostOperation_onTimer_some hlive hx' (congrFun hsame x)), ?_, rfl⟩
    exact (List.getElem?_set_self hlen').trans (List.getElem?_set_self hk).symm

/-! ### The expiry law -/

/-- The tick of an event at the true time `r` (R110). -/
def tickAt (w r : Nat) : Tick := lowBits w (BitVec.ofNat 32 r)

theorem toNat_tickAt {w : Nat} (hw : w ≤ 32) (r : Nat) : (tickAt w r).toNat = r % 2 ^ w := by
  rw [tickAt, toNat_lowBits _ _ hw, BitVec.toNat_ofNat, Nat.mod_mod_of_dvd _ (pow_dvd_pow 2 hw)]

/-- The block after a read of `T[k]` at the true time `r` that left the timer `y` there and reported `expired`. -/
def State.afterTread (s : State) (k : Byte) (r : Nat) (y : Timer) (expired : Bool) : State :=
  { s with
    timers := s.timers.set k.toNat y
    env := { now := BitVec.ofNat 32 r, pin := true, txOk := true, armOk := true }
    result := some (bitWord expired) }

theorem State.afterTread_timer {s : State} {k : Byte} {x : Timer} (hx : s.timers[k.toNat]? = some x) (r : Nat)
    (y : Timer) (expired : Bool) : (s.afterTread k r y expired).timers[k.toNat]? = some y :=
  List.getElem?_set_self (List.getElem?_eq_some_iff.1 hx).1

/-- The step of a TREAD placed at the true time `r`. -/
theorem step_tread {s : State} {k : Byte} {x y : Timer} {expired : Bool} {r : Nat} (hlive : s.Live)
    (hx : s.timers[k.toNat]? = some x)
    (hread : timerRead s.cfg.tickW x (tickAt s.cfg.tickW r) = (y, expired)) (rest : List Event) :
    step { s with pending := hostEventAt (hostWord 0x02 k 0) r true :: rest } =
      .next { s.afterTread k r y expired with pending := rest } := by
  have hdec : decode (.host (hostWord 0x02 k 0)) = .ok (.tread k) := decode_of_encode_eq trivial rfl
  obtain ⟨hhost, -⟩ := stepAppliesNextEvent s rest
  rw [hostEventAt, hhost _ _ _ hdec, exec_tread]
  exact hostOperation_onTimer_some (s := { s with pending := rest, env := _, result := none }) hlive hx
    (congrArg (fun p : Timer × Bool => (p.1, bitWord p.2)) hread)

/-- The first of the results where a TREAD at the true time `r` is pending. -/
theorem results_tread {s : State} {k : Byte} {x y : Timer} {expired : Bool} {r : Nat} (hlive : s.Live)
    (hx : s.timers[k.toNat]? = some x)
    (hread : timerRead s.cfg.tickW x (tickAt s.cfg.tickW r) = (y, expired)) (rest : List Event) (n : Nat) :
    results (n + 1) { s with pending := hostEventAt (hostWord 0x02 k 0) r true :: rest } =
      some (bitWord expired) :: results n { s.afterTread k r y expired with pending := rest } := by
  rw [results, step_tread hlive hx hread rest]
  rfl

/-- The elapsed time of R112 is the true one while that is below 2^TICK_W, whatever the counter did in between (R121). -/
theorem tickAt_sub_start_mod {w armed r : Nat} {start : Tick} (hw : w ≤ 32) (hstart : start.toNat = armed % 2 ^ w)
    (hle : armed ≤ r) (hlt : r - armed < 2 ^ w) : (tickAt w r - start).toNat % 2 ^ w = r - armed := by
  have hadd := congrArg BitVec.toNat (BitVec.sub_add_cancel (tickAt w r) start)
  rw [BitVec.toNat_add, toNat_tickAt hw] at hadd
  generalize (tickAt w r - start).toNat = e at hadd ⊢
  have hmod : e + armed ≡ (r - armed) + armed [MOD 2 ^ w] := by
    calc (e + armed) % 2 ^ w = (e + start.toNat) % 2 ^ 32 % 2 ^ w := by
          rw [Nat.mod_mod_of_dvd _ (pow_dvd_pow 2 hw), hstart, Nat.add_mod_mod]
      _ = ((r - armed) + armed) % 2 ^ w := by rw [hadd, Nat.mod_mod, Nat.sub_add_cancel hle]
  exact Nat.mod_eq_of_modEq (Nat.ModEq.add_right_cancel' armed hmod) hlt

/-- Settles O12, by induction on the reads: each leaves the timer timing from `armed`, or from its own true time where it
reports expiry. -/
theorem timerExpiryLaw : Obligations.TimerExpiryLaw := by
  unfold Obligations.TimerExpiryLaw
  intro s k x armed times rest hlive hok hx hrun hstart hfit hreads
  induction times generalizing s x armed with
  | nil => rfl
  | cons r rs ih =>
    have ⟨_, hw, _⟩ := hok
    obtain ⟨hle, hlt, hrest⟩ := hreads
    have hread := timerRead_of_running hrun s.cfg.tickW (tickAt s.cfg.tickW r)
    rw [tickAt_sub_start_mod hw hstart hle hlt] at hread
    by_cases hexp : x.duration.toNat ≤ r - armed
    · rw [if_pos hexp] at hread hrest
      rw [expectedExpiries, if_pos hexp]
      have hrestart := ih (s.afterTread k r { x with start := tickAt s.cfg.tickW r } true) _ r hlive hok
        (State.afterTread_timer hx ..) hrun (toNat_tickAt hw r) hfit hrest
      exact (results_tread hlive hx hread _ _).trans (congrArg (some 1 :: ·) hrestart)
    · rw [if_neg hexp] at hread hrest
      rw [expectedExpiries, if_neg hexp]
      have hwait := ih (s.afterTread k r x false) x armed hlive hok (State.afterTread_timer hx ..) hrun hstart hfit hrest
      exact (results_tread hlive hx hread _ _).trans (congrArg (some 0 :: ·) hwait)

/-! ### The premise of R120 -/

/-- A timer armed at 0 with the longest duration of 32 bits. -/
def longestTimer : Timer := { start := 0, duration := 0xFFFFFFFF, running := true }

/-- The reset block with `longestTimer` as `T[0]`. -/
def longestArmed : State := { State.reset with timers := [longestTimer] }

/-- The reads of notes/assumptions/18.md: each gap is below 2^32, the two together are not. -/
def readsPastWrap : List Nat := [0xFFFFFFFE, 0x1FFFFFFFD]

theorem readsPastWrap_near : readsNearEachOther longestArmed.cfg.tickW 0 readsPastWrap := by
  change readsNearEachOther 32 0 [0xFFFFFFFE, 0x1FFFFFFFD]
  simp [readsNearEachOther]

/-- The model answers 0 to both reads: the second sees an elapsed time of 2^32 - 3. -/
theorem results_readsPastWrap :
    results 2
      { longestArmed with pending := readsPastWrap.map (fun r => hostEventAt (hostWord 0x02 0 0) r true) ++ [] } =
        [some 0, some 0] := by
  decide

/-- By the second read the duration has passed. -/
theorem expectedExpiries_readsPastWrap :
    expectedExpiries longestTimer.duration.toNat 0 readsPastWrap = [false, true] := by
  decide

/-- Refutes O13: at `readsPastWrap` the elapsed time of R112 aliases, and the expiry is not reported. -/
theorem not_timerExpiryUnderReadGapsAlone : ¬ Obligations.TimerExpiryUnderReadGapsAlone := by
  unfold Obligations.TimerExpiryUnderReadGapsAlone
  intro h
  have hlaw := h longestArmed 0 longestTimer 0 readsPastWrap [] rfl (by decide) rfl rfl rfl (by decide)
    readsPastWrap_near
  rw [expectedExpiries_readsPastWrap] at hlaw
  exact absurd (results_readsPastWrap.symm.trans hlaw) (by decide)

end Sys2Proof.Machine

/-!
The family of spec/41_debounce.md: the rows of DBUPD (R131), the three reads (R137, R139, R141), that DBUPD alone moves
the state machine (R133), and the confirmation laws of a press and of a release (R143, R145).
-/

namespace Sys2Proof.Machine

/-! ### A read of a running timer -/

theorem timerRead_expired {w : Nat} {x : Timer} {now : Tick} (hrun : x.running = true)
    (hexp : x.duration.toNat ≤ (now - x.start).toNat % 2 ^ w) :
    timerRead w x now = ({ x with start := now }, true) := by
  rw [timerRead_of_running hrun, if_pos hexp]

theorem timerRead_waiting {w : Nat} {x : Timer} {now : Tick} (hrun : x.running = true)
    (hwait : (now - x.start).toNat % 2 ^ w < x.duration.toNat) : timerRead w x now = (x, false) := by
  rw [timerRead_of_running hrun, if_neg (Nat.not_le.2 hwait)]

/-! ### One update of the state machine -/

/-- Leaving a confirmed state for the confirming state `st`: `DT` is armed with DEBOUNCE_MS (R132). -/
def Debounce.startConfirming (c : Config) (now : Tick) (st : DbState) (d : Debounce) : Debounce :=
  { d with dbState := st, timer := timerArm now c.debounceMs }

/-- A state that waits for `DT` to expire (R132). -/
abbrev DbState.Confirming (st : DbState) : Prop := st = .confirmingPress ∨ st = .confirmingRelease

/-- `DT` read less than DEBOUNCE_MS after the true time `u0` of its arming (R121). -/
theorem timerRead_startConfirming_early {c : Config} {u0 u : Nat} {st : DbState} (d : Debounce) (hc : c.Ok)
    (hle : u0 ≤ u) (hearly : u - u0 < c.debounceMs.toNat) :
    timerRead c.tickW (d.startConfirming c (tickAt c.tickW u0) st).timer (tickAt c.tickW u) =
      ((d.startConfirming c (tickAt c.tickW u0) st).timer, false) := by
  obtain ⟨-, hw, -, -, -, -, -, hms⟩ := hc
  have helapsed := tickAt_sub_start_mod hw (toNat_tickAt hw u0) hle (hearly.trans hms)
  exact timerRead_waiting rfl (helapsed.trans_lt hearly)

/-- `DT` read at or after DEBOUNCE_MS, less than 2^TICK_W after the true time `u0` of its arming (R121, R271). -/
theorem timerRead_startConfirming_late {c : Config} {u0 u : Nat} {st : DbState} (d : Debounce) (hc : c.Ok)
    (hle : u0 ≤ u) (hlate : c.debounceMs.toNat ≤ u - u0) (hlt : u - u0 < 2 ^ c.tickW) :
    timerRead c.tickW (d.startConfirming c (tickAt c.tickW u0) st).timer (tickAt c.tickW u) =
      (timerArm (tickAt c.tickW u) c.debounceMs, true) := by
  obtain ⟨-, hw, -⟩ := hc
  have helapsed := tickAt_sub_start_mod hw (toNat_tickAt hw u0) hle hlt
  exact timerRead_expired rfl (hlate.trans_eq helapsed.symm)

section Update

variable {c : Config} {now : Tick} {d : Debounce} {x : Timer}

theorem Debounce.update_of_released (h : d.dbState = .released) (pin : Bool) :
    d.update c now pin = if pin then d else d.startConfirming c now .confirmingPress := by
  rw [Debounce.update, h]
  rfl

theorem Debounce.update_of_pressed (h : d.dbState = .pressed) (pin : Bool) :
    d.update c now pin = if pin then d.startConfirming c now .confirmingRelease else d := by
  rw [Debounce.update, h]
  rfl

/-- Where `DT` has not expired the pin does not matter (R131). -/
theorem Debounce.update_of_unexpired (h : d.dbState.Confirming) (hread : timerRead c.tickW d.timer now = (x, false))
    (pin : Bool) : d.update c now pin = { d with timer := x } := by
  rcases h with h | h <;> simp [Debounce.update, h, hread]

theorem Debounce.update_of_press_expired (h : d.dbState = .confirmingPress)
    (hread : timerRead c.tickW d.timer now = (x, true)) (pin : Bool) :
    d.update c now pin =
      if pin then { d with timer := x, dbState := .released } else { d with timer := x }.confirmPress := by
  simp [Debounce.update, h, hread]

theorem Debounce.update_of_release_expired (h : d.dbState = .confirmingRelease)
    (hread : timerRead c.tickW d.timer now = (x, true)) (pin : Bool) :
    d.update c now pin =
      if pin then { d with timer := x }.confirmRelease c.hasReleaseEvent
      else { d with timer := x, dbState := .pressed } := by
  simp [Debounce.update, h, hread]

end Update

/-- The release latch in the words of R131: set where there is a release event, else kept. -/
theorem Debounce.confirmRelease_eq_ite (hasReleaseEvent : Bool) (d : Debounce) :
    d.confirmRelease hasReleaseEvent =
      { d with
        dbState := .released, pressing := false, released := if hasReleaseEvent then true else d.released } := by
  cases hasReleaseEvent <;> simp [Debounce.confirmRelease]

/-! ### The four operations -/

theorem exec_dbupd {s : State} {d : Debounce} (h : s.Live) (hd : s.debounce.update s.cfg s.now s.env.pin = d) :
    exec .dbupd s = .next { s with debounce := d, result := some 0 } := by
  subst hd
  exact hostOperation_live h _

theorem exec_dbheld {s : State} (h : s.Live) :
    exec .dbheld s = .next { s with result := some (bitWord s.debounce.pressing) } :=
  hostOperation_live h _

theorem bitWord_eq_ite (b : Bool) : bitWord b = if b then 1 else 0 := by
  cases b <;> rfl

/-- Settles O18: of the effects `exec_debounce` lists, the two latch reads clear one flag each and the rest is DBUPD's. -/
theorem onlyUpdateMovesDebounce : Obligations.OnlyUpdateMovesDebounce := by
  unfold Obligations.OnlyUpdateMovesDebounce
  intro i s t h hi
  rcases exec_debounce h with heq | ⟨-, heq⟩ | ⟨-, heq⟩ | ⟨hupd, -⟩
  · rw [heq]
    exact ⟨rfl, rfl, rfl, id, id⟩
  · rw [heq]
    exact ⟨rfl, rfl, rfl, fun hset => absurd hset Bool.false_ne_true, id⟩
  · rw [heq]
    exact ⟨rfl, rfl, rfl, id, fun hset => absurd hset Bool.false_ne_true⟩
  · exact absurd hupd hi

/-! ### Runs of DBUPD -/

/-- The block after a DBUPD at the true time `u` with the pin sample `pin`. -/
def State.afterDbupd (s : State) (u : Nat) (pin : Bool) : State :=
  { s with
    debounce := s.debounce.update s.cfg (tickAt s.cfg.tickW u) pin
    env := { now := BitVec.ofNat 32 u, pin := pin, txOk := true, armOk := true }
    result := some 0 }

theorem step_dbupd {s : State} (hlive : s.Live) (u : Nat) (pin : Bool) (rest : List Event) :
    step { s with pending := hostEventAt 0x10 u pin :: rest } =
      .next { s.afterDbupd u pin with pending := rest } := by
  have hdec : decode (.host 0x10) = .ok .dbupd := decode_of_encode_eq trivial rfl
  obtain ⟨hhost, -⟩ := stepAppliesNextEvent s rest
  rw [hostEventAt, hhost _ _ _ hdec]
  exact exec_dbupd (s := { s with pending := rest, env := _, result := none }) hlive rfl

/-- DBUPDs that find nothing to do leave the block running with the same debounce state. -/
theorem run_idleDbupds {s : State} {samples : List (Nat × Bool)} (rest : List Event) (hlive : s.Live)
    (hidle : ∀ p ∈ samples, s.debounce.update s.cfg (tickAt s.cfg.tickW p.1) p.2 = s.debounce) :
    ∃ t : State, t.Live ∧ t.cfg = s.cfg ∧ t.debounce = s.debounce ∧
      run samples.length { s with pending := samples.map (fun p => hostEventAt 0x10 p.1 p.2) ++ rest } =
        .next { t with pending := rest } := by
  induction samples generalizing s with
  | nil => exact ⟨s, hlive, rfl, rfl, rfl⟩
  | cons p ps ih =>
    obtain ⟨hp, hps⟩ := List.forall_mem_cons.1 hidle
    have hsame : (s.afterDbupd p.1 p.2).debounce = s.debounce := hp
    obtain ⟨t, htlive, hcfg, hdeb, hrun⟩ := ih (s := s.afterDbupd p.1 p.2) hlive (by rw [hsame]; exact hps)
    exact ⟨t, htlive, hcfg, hdeb.trans hsame, (run_next (step_dbupd hlive ..)).trans hrun⟩

/-- A sample that starts a confirmation, and DBUPDs less than DEBOUNCE_MS after it (R143): whatever their pins, the block
is left waiting for `DT` as that sample armed it. -/
theorem run_waitingDbupds {s : State} {u0 : Nat} {p0 : Bool} {st : DbState} {waits : List (Nat × Bool)}
    (rest : List Event) (hlive : s.Live) (hok : s.cfg.Ok) (hst : st.Confirming)
    (hstart : s.debounce.update s.cfg (tickAt s.cfg.tickW u0) p0 =
      s.debounce.startConfirming s.cfg (tickAt s.cfg.tickW u0) st)
    (hwaits : ∀ p ∈ waits, u0 ≤ p.1 ∧ p.1 - u0 < s.cfg.debounceMs.toNat) :
    ∃ t : State, t.Live ∧ t.cfg = s.cfg ∧
      t.debounce = s.debounce.startConfirming s.cfg (tickAt s.cfg.tickW u0) st ∧
      run (waits.length + 1) { s with
        pending := hostEventAt 0x10 u0 p0 :: waits.map (fun p => hostEventAt 0x10 p.1 p.2) ++ rest } =
          .next { t with pending := rest } := by
  have hidle : ∀ p ∈ waits, (s.afterDbupd u0 p0).debounce.update s.cfg (tickAt s.cfg.tickW p.1) p.2 =
      (s.afterDbupd u0 p0).debounce := by
    intro p hp
    obtain ⟨hle, hearly⟩ := hwaits p hp
    rw [State.afterDbupd, hstart]
    exact Debounce.update_of_unexpired hst (timerRead_startConfirming_early _ hok hle hearly) p.2
  obtain ⟨t, htlive, hcfg, hdeb, hrun⟩ := run_idleDbupds (s := s.afterDbupd u0 p0) rest hlive hidle
  exact ⟨t, htlive, hcfg, hdeb.trans hstart, (run_next (step_dbupd hlive ..)).trans hrun⟩

/-- One more DBUPD after a run that leaves the block in `t`. -/
theorem run_dbupd_after {n ub : Nat} {before t : State} {pb : Bool} {rest : List Event}
    (hrun : run n before = .next { t with pending := hostEventAt 0x10 ub pb :: rest }) (hlive : t.Live) :
    run (n + 1) before = .next { t.afterDbupd ub pb with pending := rest } :=
  (run_add hrun).trans (run_next (step_dbupd hlive ub pb rest))

/-- Settles O19: the samples before the expiry leave the block in ConfirmingPress (`run_waitingDbupds`), and the last one
finds `DT` expired. -/
theorem pressConfirmation : Obligations.PressConfirmation := by
  unfold Obligations.PressConfirmation
  rintro s u0 ub pb waits rest hlive hok hst hwaits hle hlate hlt _ rfl
  obtain ⟨t, htlive, hcfg, hdeb, hrun⟩ := run_waitingDbupds (hostEventAt 0x10 ub pb :: rest) hlive hok (.inl rfl)
    (Debounce.update_of_released hst false) hwaits
  have hdecide : (t.afterDbupd ub pb).debounce = _ := Debounce.update_of_press_expired (by rw [hdeb]; rfl)
    (by rw [hcfg, hdeb]; exact timerRead_startConfirming_late _ hok hle hlate hlt) pb
  refine ⟨⟨_, hrun, by rw [hdeb]; exact ⟨rfl, rfl, rfl⟩⟩, _, run_dbupd_after hrun htlive, rfl, ?_⟩
  rw [hdecide, hdeb]
  cases pb with
  | false => exact ⟨rfl, fun _ => ⟨rfl, rfl, rfl⟩, nofun⟩
  | true => exact ⟨rfl, nofun, fun _ => ⟨rfl, rfl, rfl⟩⟩

/-- Settles O20: as O19 with the pin levels exchanged, and the release latch as the parameters have it. -/
theorem releaseConfirmation : Obligations.ReleaseConfirmation := by
  unfold Obligations.ReleaseConfirmation
  rintro s u0 ub pb waits rest hlive hok hst hwaits hle hlate hlt _ rfl
  obtain ⟨t, htlive, hcfg, hdeb, hrun⟩ := run_waitingDbupds (hostEventAt 0x10 ub pb :: rest) hlive hok (.inr rfl)
    (Debounce.update_of_pressed hst true) hwaits
  have hdecide : (t.afterDbupd ub pb).debounce = _ := Debounce.update_of_release_expired (by rw [hdeb]; rfl)
    (by rw [hcfg, hdeb]; exact timerRead_startConfirming_late _ hok hle hlate hlt) pb
  refine ⟨⟨_, hrun, by rw [hdeb]; exact ⟨rfl, rfl, rfl⟩⟩, _, run_dbupd_after hrun htlive, rfl, ?_⟩
  rw [hdecide, hdeb, hcfg]
  cases pb with
  | true => exact ⟨rfl, fun _ => ⟨rfl, rfl, rfl⟩, nofun⟩
  | false => exact ⟨rfl, nofun, fun _ => ⟨rfl, rfl, rfl⟩⟩

/-! ### The rows of DBUPD and the reads -/

/-- Settles O14: each row is one update of the state machine, by the state, the pin and what the read of `DT` gives. -/
theorem debounceTransitions : Obligations.DebounceTransitions := by
  unfold Obligations.DebounceTransitions
  rintro s hlive d hd expired waiting idle rfl rfl rfl
  subst hd
  refine ⟨fun hst hpin => ?_, fun hst hpin => ?_, fun hst ⟨hrun, hexp⟩ hpin => ?_, fun hst ⟨hrun, hexp⟩ hpin => ?_,
    fun hst hpin => ?_, fun hst hpin => ?_, fun hst ⟨hrun, hexp⟩ hpin => ?_, fun hst ⟨hrun, hexp⟩ hpin => ?_,
    fun hst ⟨hrun, hwait⟩ => ?_, fun hst hidle => ?_⟩
  · exact exec_dbupd hlive (by rw [Debounce.update_of_released hst, hpin]; rfl)
  · exact exec_dbupd hlive (by rw [Debounce.update_of_released hst, hpin]; rfl)
  · exact exec_dbupd hlive (by rw [Debounce.update_of_press_expired hst (timerRead_expired hrun hexp), hpin]; rfl)
  · exact exec_dbupd hlive (by rw [Debounce.update_of_press_expired hst (timerRead_expired hrun hexp), hpin]; rfl)
  · exact exec_dbupd hlive (by rw [Debounce.update_of_pressed hst, hpin]; rfl)
  · exact exec_dbupd hlive (by rw [Debounce.update_of_pressed hst, hpin]; rfl)
  · exact exec_dbupd hlive (by
      rw [Debounce.update_of_release_expired hst (timerRead_expired hrun hexp), hpin, Debounce.confirmRelease_eq_ite]
      rfl)
  · exact exec_dbupd hlive (by rw [Debounce.update_of_release_expired hst (timerRead_expired hrun hexp), hpin]; rfl)
  · exact exec_dbupd hlive (Debounce.update_of_unexpired hst (timerRead_waiting hrun hwait) _)
  · exact exec_dbupd hlive (Debounce.update_of_unexpired hst (timerRead_idle hidle _ _) _)

/-- Settles O15: DBPUSH on a running block (`exec_dbpush`), with the flag as a word. -/
theorem pushedReadOnce : Obligations.PushedReadOnce := by
  unfold Obligations.PushedReadOnce
  intro s hlive
  rw [exec_dbpush hlive, bitWord_eq_ite]
  rfl

/-- Settles O16: DBHELD on a running block (`exec_dbheld`), with the level as a word. -/
theorem heldLevelRead : Obligations.HeldLevelRead := by
  unfold Obligations.HeldLevelRead
  intro s hlive
  rw [exec_dbheld hlive, bitWord_eq_ite]

/-- Settles O17, by whether there is a release event. -/
theorem releasedReadOnce : Obligations.ReleasedReadOnce := by
  unfold Obligations.ReleasedReadOnce
  refine fun s hlive => ⟨fun hrel => ?_, exec_dbrel_of_noRelease hlive⟩
  rw [exec_dbrel hlive hrel, bitWord_eq_ite]
  rfl

end Sys2Proof.Machine

/-!
The family of spec/42_frame_receiver.md: what the receive event does with one byte (R150), RXARM and FPOLL (R156, R158),
a halted block (R155, R233), and the laws of a frame received byte by byte (R160, R161, R188).
-/

namespace Sys2Proof.Machine

/-! ### One received byte -/

theorem State.receiveByte_dropped {s : State} (h : s.halt.halted = true ∨ s.receiver.rxArmed = false) (b : Byte)
    (ok : Bool) : s.receiveByte b ok = .next s :=
  if_pos (by simpa using h)

/-- The receiver after a byte that is not dropped. -/
def Receiver.afterByte (r : Receiver) (hidx : r.idx.toNat ≤ frameMax) (b : Byte) : Receiver :=
  r.storeByte ⟨r.storeIndex, Receiver.storeIndex_lt hidx⟩ b

section AfterByte

variable {r : Receiver} (hidx : r.idx.toNat ≤ frameMax) (b : Byte)

@[simp] theorem Receiver.afterByte_buf : (r.afterByte hidx b).buf = r.buf.write r.storeIndex b :=
  Receiver.storeByte_buf ..

theorem Receiver.afterByte_idx :
    (r.afterByte hidx b).idx.toNat = if b ≠ term ∧ r.storeIndex + 1 = frameMax then 0 else r.storeIndex + 1 :=
  Receiver.storeByte_idx ..

@[simp] theorem Receiver.afterByte_framePresent :
    (r.afterByte hidx b).framePresent = (r.framePresent || decide (b = term)) :=
  Receiver.storeByte_framePresent ..

theorem Receiver.afterByte_term_framePresent : (r.afterByte hidx term).framePresent = true := by
  rw [Receiver.afterByte_framePresent, decide_eq_true rfl, Bool.or_true]

@[simp] theorem Receiver.afterByte_rxArmed : (r.afterByte hidx b).rxArmed = r.rxArmed :=
  Receiver.storeByte_rxArmed ..

end AfterByte

theorem State.receiveByte_stored {s : State} (hlive : s.Live) (harmed : s.receiver.rxArmed = true)
    (hidx : s.receiver.idx.toNat ≤ frameMax) (b : Byte) (ok : Bool) :
    s.receiveByte b ok =
      if ok then .next { s with receiver := s.receiver.afterByte hidx b }
      else .next ({ s with receiver := s.receiver.afterByte hidx b }.haltEntry .rxRearmFail) := by
  have hkept : ¬ (s.halt.halted || !s.receiver.rxArmed) = true := by simp [hlive, harmed]
  exact (if_neg hkept).trans (dif_pos (Receiver.storeIndex_lt hidx))

/-- Settles O21: the byte is dropped, or stored at `Receiver.storeIndex`, whose last value is 31. -/
theorem receiveByteResult : Obligations.ReceiveByteResult := by
  unfold Obligations.ReceiveByteResult
  refine fun s b => ⟨fun hdrop ok => State.receiveByte_dropped hdrop b ok, ?_⟩
  rintro hlive harmed hidx hwf _ rfl
  refine ⟨s.receiver.afterByte hidx b, State.receiveByte_stored hlive harmed hidx b true,
    State.receiveByte_stored hlive harmed hidx b false, ?_, fun a ha => ?_, ?_,
    Receiver.afterByte_framePresent hidx b, (Receiver.afterByte_rxArmed hidx b).trans harmed⟩
  · rw [Receiver.afterByte_buf]
    exact Memory.read_write_same _ b hwf
  · rw [Receiver.afterByte_buf]
    exact Memory.read_write_other _ _ a b ha
  · refine (Receiver.afterByte_idx hidx b).trans (if_congr (and_congr_right fun _ => ?_) rfl rfl)
    exact Nat.succ_inj (b := 31)

/-! ### The receiver's host operations -/

theorem exec_rxarm {s : State} (h : s.Live) :
    exec .rxarm s =
      if s.env.armOk then .next { s with receiver := { s.receiver with rxArmed := true }, result := some 0 }
      else .next (s.haltEntry .rxRearmFail) :=
  hostOperation_live h _

/-- Settles O22, by the platform's answer. -/
theorem receiveArmResult : Obligations.ReceiveArmResult := by
  unfold Obligations.ReceiveArmResult
  exact fun s hlive => ⟨fun hok => (exec_rxarm hlive).trans (if_pos hok),
    fun hfail => (exec_rxarm hlive).trans (if_neg (by simp [hfail]))⟩

/-- Settles O23: FPOLL on a running block (`exec_fpoll`), with the flag as a word. -/
theorem framePollReadOnce : Obligations.FramePollReadOnce := by
  unfold Obligations.FramePollReadOnce
  intro s hlive
  rw [exec_fpoll hlive, bitWord_eq_ite]
  rfl

/-! ### The halted block -/

theorem exec_halted {s : State} (h : s.halt.halted = true) {i : Instr} (hrx : ∀ b ok, i ≠ .rx b ok) :
    exec i s = .fault (.halted s.halt.cause) := by
  obtain ⟨t, -, hexec⟩ := exec_effect i s hrx
  exact hexec.trans (hostOperation_halted h _)

theorem step_of_pending_nil {s : State} (h : s.pending = []) : step s = s.idle := by
  rw [step, State.fetch, h]

theorem step_of_pending_reset {s : State} {rest : List Event} (h : s.pending = .reset :: rest) :
    step s = .next { s with pending := rest, result := none }.resetEvent := by
  rw [step, State.fetch, h]

/-- Settles O50: the guard of R233 stops every instruction but RX, and the block at the end of its events; RX drops its
byte; a reset clears `halted`. -/
theorem haltedIsStuck : Obligations.HaltedIsStuck := by
  unfold Obligations.HaltedIsStuck
  refine fun s hh => ⟨fun i hrx => exec_halted hh hrx, fun b ok => State.receiveByte_dropped (.inl hh) b ok,
    fun rest hp => ⟨_, step_of_pending_reset hp, rfl⟩, fun hp => ?_⟩
  exact (step_of_pending_nil hp).trans (hostOperation_halted hh _)

/-! ### Bytes received in order -/

/-- `r` is the receiver `r₀`, its index at 0, after `bytes` were stored in order without a reset of the index (R160). -/
structure Receiver.Received (r₀ r : Receiver) (bytes : List Byte) : Prop where
  bufWf : r.buf.wf = true
  read (a : Nat) : r.buf.read a = bytes[a]?.getD (r₀.buf.read a)
  idx : r.idx.toNat = bytes.length
  framePresent : r.framePresent = (r₀.framePresent || decide (term ∈ bytes))
  rxArmed : r.rxArmed = r₀.rxArmed

theorem Receiver.Received.nil {r : Receiver} (hwf : r.buf.wf = true) (hidx : r.idx = 0) : r.Received r [] where
  bufWf := hwf
  read _ := rfl
  idx := congrArg BitVec.toNat hidx
  framePresent := by simp
  rxArmed := rfl

section NextByte

variable {r₀ r : Receiver} {bytes : List Byte}

/-- The next byte goes behind those received, while they leave room. -/
theorem Receiver.Received.storeIndex (h : r₀.Received r bytes) (hroom : bytes.length < frameMax) :
    r.storeIndex = bytes.length := by
  rw [Receiver.storeIndex, h.idx, if_neg hroom.ne]

theorem Receiver.Received.idx_le (h : r₀.Received r bytes) (hroom : bytes.length < frameMax) :
    r.idx.toNat ≤ frameMax :=
  h.idx.trans_le hroom.le

theorem Receiver.Received.read_of_lt (h : r₀.Received r bytes) {k : Nat} (hk : k < bytes.length) :
    r.buf.read k = bytes[k] := by
  rw [h.read, List.getElem?_eq_getElem hk]
  rfl

variable (h : r₀.Received r bytes) (hroom : bytes.length < frameMax) (hidx : r.idx.toNat ≤ frameMax)
include h hroom

theorem Receiver.Received.afterByte_read (b : Byte) (a : Nat) :
    (r.afterByte hidx b).buf.read a = (bytes ++ [b])[a]?.getD (r₀.buf.read a) := by
  rw [Receiver.afterByte_buf, h.storeIndex hroom]
  rcases Nat.lt_trichotomy a bytes.length with hlt | rfl | hgt
  · rw [Memory.read_write_other _ _ _ b hlt.ne, h.read, List.getElem?_append_left hlt]
  · rw [Memory.read_write_same _ b h.bufWf, List.getElem?_concat_length]
    rfl
  · have hlen : (bytes ++ [b]).length ≤ a := List.length_append.trans_le hgt
    rw [Memory.read_write_other _ _ _ b hgt.ne', h.read, List.getElem?_eq_none hgt.le, List.getElem?_eq_none hlen]

theorem Receiver.Received.afterByte_idx (b : Byte) :
    (r.afterByte hidx b).idx.toNat =
      if b ≠ term ∧ bytes.length + 1 = frameMax then 0 else bytes.length + 1 := by
  rw [Receiver.afterByte_idx, h.storeIndex hroom]

/-- One more byte keeps the reception going, unless it fills the buffer without a terminator (R152). -/
theorem Receiver.Received.afterByte {b : Byte} (hb : b = term ∨ bytes.length + 1 < frameMax) :
    r₀.Received (r.afterByte hidx b) (bytes ++ [b]) where
  bufWf := by
    rw [Receiver.afterByte_buf, h.storeIndex hroom]
    exact Memory.wfFrom_write _ b h.bufWf (Nat.zero_le _) hroom
  read := h.afterByte_read hroom hidx b
  idx := by
    have hgoes : ¬ (b ≠ term ∧ bytes.length + 1 = frameMax) := fun ⟨hne, hfull⟩ =>
      hb.elim hne fun hlt => hlt.ne hfull
    rw [h.afterByte_idx hroom, if_neg hgoes, List.length_append, List.length_singleton]
  framePresent := by
    rw [Receiver.afterByte_framePresent, h.framePresent, Bool.or_assoc, ← Bool.decide_or]
    simp [eq_comm]
  rxArmed := (Receiver.afterByte_rxArmed hidx b).trans h.rxArmed

end NextByte

/-- The block `s` with the receiver `r`, the events `rest` still to come, and no result. -/
def State.receivedTo (s : State) (r : Receiver) (rest : List Event) : State :=
  { s with pending := rest, receiver := r, result := none }

/-- The step of a byte that a running armed block stores, with a successful re-arm. -/
theorem step_rx {s : State} (hlive : s.Live) (harmed : s.receiver.rxArmed = true)
    (hidx : s.receiver.idx.toNat ≤ frameMax) (b : Byte) (rest : List Event) :
    step { s with pending := .rx b true :: rest } = .next (s.receivedTo (s.receiver.afterByte hidx b) rest) :=
  State.receiveByte_stored (s := s.receivedTo s.receiver rest) hlive harmed hidx b true

/-- A run of received bytes: all but the last leave room and are received in order, the last comes after them, and no
event of theirs has a result. -/
theorem run_rxEvents {s : State} (hlive : s.Live) (harmed : s.receiver.rxArmed = true) (hidx : s.receiver.idx = 0)
    (hwf : s.receiver.buf.wf = true) {bytes : List Byte} (hroom : bytes.length < frameMax) (b : Byte)
    (rest : List Event) :
    ∃ (r : Receiver) (hle : r.idx.toNat ≤ frameMax), s.receiver.Received r bytes ∧
      run (bytes.length + 1) { s with pending := rxEvents (bytes ++ [b]) ++ rest } =
        .next (s.receivedTo (r.afterByte hle b) rest) ∧
      results (bytes.length + 1) { s with pending := rxEvents (bytes ++ [b]) ++ rest } =
        List.replicate (bytes.length + 1) none := by
  induction bytes using List.reverseRecOn generalizing b rest with
  | nil =>
    have hstart := Receiver.Received.nil hwf hidx
    have hstep := step_rx hlive harmed (hstart.idx_le hroom) b rest
    exact ⟨s.receiver, hstart.idx_le hroom, hstart, run_next hstep, results_next hstep⟩
  | append_singleton bytes c ih =>
    have hlen : (bytes ++ [c]).length = bytes.length + 1 := List.length_append
    have hroom' : bytes.length + 1 < frameMax := hlen ▸ hroom
    obtain ⟨r, hle, hr, hrun, hres⟩ := ih (Nat.lt_of_succ_lt hroom') c (.rx b true :: rest)
    have hall := hr.afterByte (Nat.lt_of_succ_lt hroom') hle (b := c) (.inr hroom')
    have hstep := step_rx (s := s.receivedTo (r.afterByte hle c) []) hlive (hall.rxArmed.trans harmed)
      (hall.idx_le hroom) b rest
    have hevents : rxEvents (bytes ++ [c] ++ [b]) ++ rest = rxEvents (bytes ++ [c]) ++ .rx b true :: rest := by
      simp [rxEvents]
    refine ⟨r.afterByte hle c, hall.idx_le hroom, hall, ?_⟩
    rw [hevents, hlen]
    refine ⟨(run_add hrun).trans (run_next hstep), (results_add hrun).trans ?_⟩
    rw [hres, List.replicate_succ' (n := bytes.length + 1)]
    exact congrArg _ (results_next hstep)

/-- Settles O26: the bytes before the terminator are received in order, and it closes the frame even at the last
index. -/
theorem cleanFrameReception : Obligations.CleanFrameReception := by
  unfold Obligations.CleanFrameReception
  intro s bytes rest hlive harmed hidx hwf hroom _
  obtain ⟨r, hle, hr, hrun, -⟩ := run_rxEvents hlive harmed hidx hwf hroom term rest
  have hall := hr.afterByte hroom hle (.inl rfl)
  have hlen : (bytes ++ [term]).length = bytes.length + 1 := List.length_append
  refine ⟨r.afterByte hle term, hrun, fun k hk => hall.read_of_lt hk, fun a ha => ?_, hall.idx.trans hlen,
    Receiver.afterByte_term_framePresent hle, hall.rxArmed.trans harmed⟩
  rw [hall.read, List.getElem?_eq_none (hlen.trans_le ha)]
  rfl

/-- Settles O27: 31 bytes are received in order, and the 32nd, no terminator, fills the buffer and resets the index. -/
theorem overflowReception : Obligations.OverflowReception := by
  unfold Obligations.OverflowReception
  intro s bytes rest hlive harmed hidx hwf hlen hterm
  obtain ⟨front, b, rfl⟩ : ∃ front b, bytes = front ++ [b] := by
    refine (List.eq_nil_or_concat' bytes).resolve_left ?_
    rintro rfl
    cases hlen
  have hfull : front.length + 1 = frameMax := List.length_append.symm.trans hlen
  have hroom : front.length < frameMax := hfull ▸ Nat.lt_succ_self _
  obtain ⟨hfront, hb⟩ : term ∉ front ∧ b ≠ term := by simpa [eq_comm] using hterm
  obtain ⟨r, hle, hr, hrun, -⟩ := run_rxEvents hlive harmed hidx hwf hroom b rest
  rw [hfull] at hrun
  refine ⟨r.afterByte hle b, hrun, fun k hk => ?_, BitVec.eq_of_toNat_eq ?_, ?_, ?_⟩
  · rw [hr.afterByte_read hroom, List.getElem?_eq_getElem hk]
    rfl
  · exact (hr.afterByte_idx hroom hle b).trans (if_pos ⟨hb, hfull⟩)
  · rw [Receiver.afterByte_framePresent, hr.framePresent, decide_eq_false hfront, decide_eq_false hb, Bool.or_false,
      Bool.or_false]
  · rw [Receiver.afterByte_rxArmed, hr.rxArmed, harmed]

/-! ### A received Measure response -/

/-- The fields of a Measure response (R180). -/
def Sensor.measured (x : Sensor) (distance : BitVec 16) (err : Byte) : Sensor :=
  { x with distance := distance, errorCode := err, distanceFresh := true }

/-- A Measure response of three payload bytes covers its fields, whatever DECODE_LEN_CHECK is (R180, R185). -/
theorem decodeMeasure_three (c : Config) (r : Receiver) (x : Sensor) :
    decodeMeasure c 3 r x = some (x.measured (be16 (r.memRead 4) (r.memRead 5)) (r.memRead 6)) := by
  refine if_pos ?_
  unfold lenCovers
  cases c.decodeLenCheck <;> rfl

theorem State.parseBody_of_decoded {s : State} {len : Byte} {d : Config → Byte → Receiver → Sensor → Option Sensor}
    {x : Sensor} (hlen : LenOk len) (hterm : s.receiver.memRead ⟨4 + len.toNat, terminatorIndex_lt hlen⟩ = term)
    (hx : d s.cfg len s.receiver s.sensor = some x) : s.parseBody len d = s.parseSuccess x := by
  rw [State.parseBody, dif_pos hlen, if_pos hterm, hx]

/-- The bytes of a Measure response with the payload `hi lo err` (R92, R180). -/
def measureResponse (hi lo err : Byte) : List Byte := [0x55, 0xAA, 0x81, 0x03, hi, lo, err, 0xFA]

/-- The buffer holds the Measure response with the payload `hi lo err` from index 0 on. -/
def Receiver.HoldsMeasure (r : Receiver) (hi lo err : Byte) : Prop :=
  ∀ (k : Nat) (hk : k < (measureResponse hi lo err).length), r.buf.read k = (measureResponse hi lo err)[k]

/-- PARSE on a buffer that holds a Measure response succeeds with its payload (R171-R180). -/
theorem exec_parse_of_holdsMeasure {s : State} {hi lo err : Byte} (hlive : s.Live)
    (h : s.receiver.HoldsMeasure hi lo err) : exec .parse s = s.parseSuccess (s.sensor.measured (be16 hi lo) err) := by
  have hbyte (k : Fin frameMax) (hk : k.val < 8) : s.receiver.memRead k = (measureResponse hi lo err)[k.val] :=
    h k.val hk
  have hrow := exec_parse_of_header (cmd := 0x81) (len := 0x03) (hbyte 0 (by decide)) (hbyte 1 (by decide))
    (hbyte 2 (by decide)) (hbyte 3 (by decide))
  rw [hrow, exec_responseOf, hostOperation_live hlive]
  refine State.parseBody_of_decoded (by decide) (hbyte 7 (by decide)) ((decodeMeasure_three ..).trans ?_)
  rw [hbyte 4 (by decide), hbyte 5 (by decide), hbyte 6 (by decide)]
  rfl

/-! ### The poll of a received response -/

/-- The step of a host word that decodes to `i`. -/
theorem step_host {s : State} {w : HostWord} {i : Instr} (h : decodeHost w = i) (env : Env) (rest : List Event) :
    step { s with pending := .host w env :: rest } = exec i { s with pending := rest, env := env, result := none } :=
  (stepAppliesNextEvent s rest).1 w env i (congrArg Except.ok h)

/-- The block after an FPOLL. -/
def State.afterFpoll (s : State) (env : Env) : State :=
  { s with env := env, receiver := s.receiver.takeFramePresent.1, result := some (bitWord s.receiver.framePresent) }

theorem step_fpoll {s : State} (hlive : s.Live) (env : Env) (rest : List Event) :
    step { s with pending := .host 0x21 env :: rest } = .next { s.afterFpoll env with pending := rest } :=
  (step_host rfl env rest).trans (exec_fpoll hlive)

/-- The block after the PARSE of a Measure response with the payload `hi lo err`. -/
def State.afterParseMeasure (s : State) (env : Env) (hi lo err : Byte) : State :=
  { s with
    env := env
    receiver := { s.receiver with idx := 0 }
    sensor := { s.sensor.measured (be16 hi lo) err with responseReady := true }
    result := some 1 }

theorem step_parse_of_holdsMeasure {s : State} {hi lo err : Byte} (hlive : s.Live)
    (h : s.receiver.HoldsMeasure hi lo err) (env : Env) (rest : List Event) :
    step { s with pending := .host 0x22 env :: rest } =
      .next { s.afterParseMeasure env hi lo err with pending := rest } :=
  (step_host rfl env rest).trans
    (exec_parse_of_holdsMeasure (s := { s with pending := rest, env := env, result := none }) hlive h)

/-- The block after a GRDY. -/
def State.afterGrdy (s : State) (env : Env) : State :=
  { s with env := env, sensor := s.sensor.takeResponseReady.1, result := some (bitWord s.sensor.responseReady) }

theorem step_grdy {s : State} (hlive : s.Live) (env : Env) (rest : List Event) :
    step { s with pending := .host 0x48 env :: rest } = .next { s.afterGrdy env with pending := rest } :=
  (step_host rfl env rest).trans (exec_grdy hlive)

/-- The host's poll of R188: FPOLL, PARSE, GRDY, GRDY. -/
def pollEvents (env : Env) : List Event := [.host 0x21 env, .host 0x22 env, .host 0x48 env, .host 0x48 env]

/-- The block after the poll of a Measure response with the payload `hi lo err`. -/
def State.afterMeasurePoll (s : State) (env : Env) (hi lo err : Byte) : State :=
  (((s.afterFpoll env).afterParseMeasure env hi lo err).afterGrdy env).afterGrdy env

/-- The poll of a Measure response that stands in the buffer reports it exactly once. -/
theorem poll_of_holdsMeasure {s : State} {hi lo err : Byte} (hlive : s.Live) (hpresent : s.receiver.framePresent = true)
    (h : s.receiver.HoldsMeasure hi lo err) (env : Env) (rest : List Event) :
    run 4 { s with pending := pollEvents env ++ rest } =
      .next { s.afterMeasurePoll env hi lo err with pending := rest } ∧
    results 4 { s with pending := pollEvents env ++ rest } = [some 1, some 1, some 1, some 0] := by
  have hpoll := step_fpoll hlive env (.host 0x22 env :: .host 0x48 env :: .host 0x48 env :: rest)
  have hparse := step_parse_of_holdsMeasure (s := s.afterFpoll env) hlive h env
    (.host 0x48 env :: .host 0x48 env :: rest)
  have hready := step_grdy (s := (s.afterFpoll env).afterParseMeasure env hi lo err) hlive env (.host 0x48 env :: rest)
  have hagain := step_grdy (s := ((s.afterFpoll env).afterParseMeasure env hi lo err).afterGrdy env) hlive env rest
  refine ⟨(run_next hpoll).trans ((run_next hparse).trans ((run_next hready).trans (run_next hagain))), ?_⟩
  have hone : (s.afterFpoll env).result = some 1 := congrArg (some ∘ bitWord) hpresent
  exact (results_next hpoll).trans (congrArg₂ _ hone ((results_next hparse).trans (congrArg _
    ((results_next hready).trans (congrArg _ (results_next hagain))))))

/-- Settles O37: the eight bytes are received in order, a 0xFA in the payload among them, and the poll finds the
response. -/
theorem measureRoundTrip : Obligations.MeasureRoundTrip := by
  unfold Obligations.MeasureRoundTrip
  rintro s hi lo err rest hlive harmed hidx hwf _ rfl
  have hroom : [0x55, 0xAA, 0x81, 0x03, hi, lo, err].length < frameMax := (by decide : 7 < 32)
  obtain ⟨r, hle, hr, hrun, hres⟩ := run_rxEvents hlive harmed hidx hwf hroom term (pollEvents s.env ++ rest)
  have hall := hr.afterByte hroom hle (.inl rfl)
  have hholds : (r.afterByte hle term).HoldsMeasure hi lo err := fun k hk => hall.read_of_lt hk
  obtain ⟨hpollRun, hpollRes⟩ :=
    poll_of_holdsMeasure (s := s.receivedTo (r.afterByte hle term) []) hlive
      (Receiver.afterByte_term_framePresent hle) hholds s.env rest
  rw [List.append_assoc]
  refine ⟨(results_add (m := 4) hrun).trans ?_, _, (run_add (m := 4) hrun).trans hpollRun, rfl, rfl, rfl, rfl, rfl⟩
  exact congrArg₂ (· ++ ·) hres hpollRes

end Sys2Proof.Machine

/-!
The family of spec/43_parser.md: when PARSE and the response rows succeed and when they fail (R171-R179, R184, R185),
the fields each decoder writes (R180-R183), and the bytes PARSE reads (R186, R187).
-/

namespace Sys2Proof.Machine

/-! ### The decoders -/

/-- The bytes of payload that the decoder of a CMD reads (R180-R183, R185). -/
def fieldExtent (cmd : Byte) : Nat :=
  if cmd = cmdFactoryDefaultsCode then 7 else if cmd = cmdResetCode then 0 else 3

theorem decodeByCmd_measure : decodeByCmd cmdMeasureCode = decodeMeasure := rfl

theorem decodeByCmd_reset : decodeByCmd cmdResetCode = decodeReset := rfl

theorem decodeByCmd_factoryDefaults : decodeByCmd cmdFactoryDefaultsCode = decodeFactoryDefaults := rfl

theorem decodeByCmd_productInfo : decodeByCmd cmdProductInfoCode = decodeProductInfo := rfl

theorem lenCovers_iff {c : Config} {extent : Nat} {len : Byte} :
    lenCovers c extent len = true ↔ c.decodeLenCheck = .unchecked ∨ extent ≤ len.toNat := by
  unfold lenCovers
  cases c.decodeLenCheck <;> simp

theorem mem_decodedCmds_iff {cmd : Byte} :
    cmd ∈ decodedCmds ↔
      cmd = cmdMeasureCode ∨ cmd = cmdResetCode ∨ cmd = cmdFactoryDefaultsCode ∨ cmd = cmdProductInfoCode := by
  simp only [decodedCmds, List.mem_cons, List.not_mem_nil, or_false]

section DecodeByCmd

variable {cmd len : Byte} {c : Config} {r : Receiver} {x y : Sensor}

theorem mem_decodedCmds_of_decodeByCmd (h : decodeByCmd cmd c len r x = some y) : cmd ∈ decodedCmds := by
  by_contra hcmd
  rw [mem_decodedCmds_iff, not_or, not_or, not_or] at hcmd
  obtain ⟨hmeasure, hreset, hdefaults, hinfo⟩ := hcmd
  rw [decodeByCmd, if_neg hmeasure, if_neg hreset, if_neg hdefaults, if_neg hinfo] at h
  cases h

/-- A decoder that succeeds passed DECODE_LEN_CHECK with the extent of its fields (R185). -/
theorem lenCovers_of_decodeByCmd (h : decodeByCmd cmd c len r x = some y) :
    lenCovers c (fieldExtent cmd) len = true := by
  obtain rfl | rfl | rfl | rfl := mem_decodedCmds_iff.1 (mem_decodedCmds_of_decodeByCmd h)
  · rw [decodeByCmd_measure] at h; exact (Option.ite_none_right_eq_some.1 h).1
  · rw [decodeByCmd_reset] at h; exact (Option.ite_none_right_eq_some.1 h).1
  · rw [decodeByCmd_factoryDefaults] at h; exact (Option.ite_none_right_eq_some.1 h).1
  · rw [decodeByCmd_productInfo] at h; exact (Option.ite_none_right_eq_some.1 h).1

/-- The decoders read no byte past index 10 (R186). -/
theorem decodeByCmd_congr {r' : Receiver} (h : ∀ k : Fin frameMax, k.val ≤ 10 → r.memRead k = r'.memRead k) :
    decodeByCmd cmd c len r x = decodeByCmd cmd c len r' x := by
  simp only [decodeByCmd, decodeMeasure, decodeReset, decodeFactoryDefaults, decodeProductInfo, h 4 (by decide),
    h 5 (by decide), h 6 (by decide), h 7 (by decide), h 8 (by decide), h 9 (by decide), h 10 (by decide)]

end DecodeByCmd

/-! ### The fields each decoder writes -/

section Fields

variable {c : Config} {len : Byte}

theorem decodeByCmd_measure_of_covers (h : c.decodeLenCheck = .unchecked ∨ 3 ≤ len.toNat) (r : Receiver) (x : Sensor) :
    decodeByCmd cmdMeasureCode c len r x =
      some (x.measured (be16 (r.memRead 4) (r.memRead 5)) (r.memRead 6)) := by
  rw [decodeByCmd_measure]
  exact if_pos (lenCovers_iff.2 h)

/-- The Reset decoder's extent is 0, which every LEN covers (R181). -/
theorem decodeByCmd_reset_eq (c : Config) (len : Byte) (r : Receiver) (x : Sensor) :
    decodeByCmd cmdResetCode c len r x = some x := by
  rw [decodeByCmd_reset]
  exact if_pos (lenCovers_iff.2 (.inr (Nat.zero_le _)))

theorem decodeByCmd_factoryDefaults_of_covers (h : c.decodeLenCheck = .unchecked ∨ 7 ≤ len.toNat) (r : Receiver)
    (x : Sensor) :
    decodeByCmd cmdFactoryDefaultsCode c len r x =
      some { x with
        offset := { o0 := r.memRead 4, o1 := r.memRead 5, o2 := r.memRead 6, o3 := r.memRead 7 }
        crosstalk := be16 (r.memRead 8) (r.memRead 9)
        calibration := r.memRead 10 } := by
  rw [decodeByCmd_factoryDefaults]
  exact if_pos (lenCovers_iff.2 h)

theorem decodeByCmd_productInfo_of_covers (h : c.decodeLenCheck = .unchecked ∨ 3 ≤ len.toNat) (r : Receiver)
    (x : Sensor) :
    decodeByCmd cmdProductInfoCode c len r x =
      some { x with productType := r.memRead 4, port := r.memRead 5, firmware := r.memRead 6 } := by
  rw [decodeByCmd_productInfo]
  exact if_pos (lenCovers_iff.2 h)

end Fields

/-! ### The response rows -/

/-- The row of a CMD without a decoder (R184). -/
theorem responseOf_of_not_mem {cmd : Byte} (h : cmd ∉ decodedCmds) (len : Byte) :
    responseOf cmd len = .rspUnsupported cmd len := by
  rw [mem_decodedCmds_iff, not_or, not_or, not_or] at h
  obtain ⟨hmeasure, hreset, hdefaults, hinfo⟩ := h
  rw [responseOf, if_neg hmeasure, if_neg hreset, if_neg hdefaults, if_neg hinfo]

/-- From the length check on, the buffer holds a response of `cmd` and `len` that makes the sensor state `y`, before
`responseReady` is raised (R174-R177, R185). -/
structure State.Decodes (s : State) (cmd len : Byte) (y : Sensor) : Prop where
  lenOk : LenOk len
  terminator : s.receiver.buf.read (4 + len.toNat) = term
  fields : decodeByCmd cmd s.cfg len s.receiver s.sensor = some y

section Row

variable {s : State} {cmd len : Byte} {y : Sensor}

theorem State.Decodes.extent_le (h : s.Decodes cmd len y) (hcheck : s.cfg.decodeLenCheck = .atLeast) :
    fieldExtent cmd ≤ len.toNat :=
  (lenCovers_iff.1 (lenCovers_of_decodeByCmd h.fields)).resolve_left (by rw [hcheck]; decide)

theorem exec_responseOf_of_decodes (hlive : s.Live) (h : s.Decodes cmd len y) :
    exec (responseOf cmd len) s = s.parseSuccess y := by
  rw [exec_responseOf, hostOperation_live hlive]
  exact State.parseBody_of_decoded h.lenOk h.terminator h.fields

theorem exec_responseOf_of_not_decodes (hlive : s.Live) (h : ∀ y, ¬ s.Decodes cmd len y) :
    exec (responseOf cmd len) s = s.parseFail := by
  rw [exec_responseOf, hostOperation_live hlive]
  rcases s.parseBody_cases len (decodeByCmd cmd) with hfail | ⟨y, hlen, hterm, hy, -⟩
  · exact hfail
  · exact absurd ⟨hlen, hterm, hy⟩ (h y)

/-- Under AT_LEAST a row fails on a LEN below the extent of its fields (R185). -/
theorem exec_responseOf_of_short (hlive : s.Live) (hcheck : s.cfg.decodeLenCheck = .atLeast)
    (hlen : len.toNat < fieldExtent cmd) : exec (responseOf cmd len) s = s.parseFail :=
  exec_responseOf_of_not_decodes hlive fun _ hy => absurd hlen (hy.extent_le hcheck).not_gt

end Row

/-! ### PARSE -/

/-- The buffer holds a whole response that makes the sensor state `y`, before `responseReady` is raised (R171-R177). -/
structure State.Parses (s : State) (y : Sensor) : Prop where
  header1 : s.receiver.memRead 0 = hdr1
  header2 : s.receiver.memRead 1 = hdr2
  body : s.Decodes (s.receiver.memRead 2) (s.receiver.memRead 3) y

theorem exec_parse_of_parses {s : State} {y : Sensor} (hlive : s.Live) (h : s.Parses y) :
    exec .parse s = s.parseSuccess y :=
  (exec_parse_of_header h.header1 h.header2 rfl rfl).trans (exec_responseOf_of_decodes hlive h.body)

theorem exec_parse_of_not_header {s : State} (hlive : s.Live)
    (h : ¬ (s.receiver.memRead 0 = hdr1 ∧ s.receiver.memRead 1 = hdr2)) : exec .parse s = s.parseFail := by
  refine (hostOperation_live hlive s.parseFrame).trans ?_
  rw [State.parseFrame]
  split_ifs with h1 h2
  · rfl
  · rfl
  · exact absurd ⟨not_not.1 h1, not_not.1 h2⟩ h

theorem exec_parse_of_not_parses {s : State} (hlive : s.Live) (h : ∀ y, ¬ s.Parses y) :
    exec .parse s = s.parseFail := by
  by_cases hheader : s.receiver.memRead 0 = hdr1 ∧ s.receiver.memRead 1 = hdr2
  · obtain ⟨h1, h2⟩ := hheader
    rw [exec_parse_of_header h1 h2 rfl rfl]
    exact exec_responseOf_of_not_decodes hlive fun y hy => h y ⟨h1, h2, hy⟩
  · exact exec_parse_of_not_header hlive hheader

/-- Settles O28: each failure contradicts one condition of `State.Parses`. -/
theorem parseFailure : Obligations.ParseFailure := by
  unfold Obligations.ParseFailure
  rintro s hlive rd _ hrd rfl h
  obtain rfl : rd = s.receiver.buf.read := funext hrd
  refine exec_parse_of_not_parses hlive fun y hy => ?_
  rcases h with h1 | h2 | hlen | hterm | hcmd | ⟨hcheck, hshort⟩
  · exact h1 hy.header1
  · exact h2 hy.header2
  · exact absurd hy.body.lenOk (not_le.2 hlen)
  · exact hterm hy.body.terminator
  · exact hcmd (mem_decodedCmds_of_decodeByCmd hy.body.fields)
  · have hextent : (s.receiver.memRead 3).toNat < fieldExtent (s.receiver.buf.read 2) := by
      rcases hshort with ⟨hcmd, hlt⟩ | ⟨hcmd, hlt⟩ | ⟨hcmd, hlt⟩ <;> (rw [hcmd]; exact hlt)
    exact absurd hextent (hy.body.extent_le hcheck).not_gt

/-- Settles O35: a header that decodes passes both header checks, and its row is that of its CMD and LEN. -/
theorem parseRunsBufferedResponse : Obligations.ParseRunsBufferedResponse := by
  unfold Obligations.ParseRunsBufferedResponse
  intro s i h
  obtain ⟨h1, h2, -, rfl⟩ := decodeResponse_ok h
  exact exec_parse_of_header h1 h2 rfl rfl

/-! ### The bytes PARSE reads -/

/-- The buffers agree on the header, on the longest payload a decoder reads, and on the terminator (R186). -/
def Receiver.AgreesOnParse (r r' : Receiver) : Prop :=
  ∀ a, a ≤ 10 ∨ a = 4 + (r.buf.read 3).toNat ∧ a ≤ 31 → r.buf.read a = r'.buf.read a

theorem Receiver.AgreesOnParse.memRead {r r' : Receiver} (h : r.AgreesOnParse r') (k : Fin frameMax) (hk : k.val ≤ 10) :
    r.memRead k = r'.memRead k :=
  h k.val (.inl hk)

theorem Receiver.AgreesOnParse.symm {r r' : Receiver} (h : r.AgreesOnParse r') : r'.AgreesOnParse r := by
  intro a ha
  rw [← h 3 (.inl (by decide))] at ha
  exact (h a ha).symm

theorem State.Parses.of_agrees {s s' : State} {y : Sensor} (hy : s.Parses y) (hcfg : s.cfg = s'.cfg)
    (hsensor : s.sensor = s'.sensor) (h : s.receiver.AgreesOnParse s'.receiver) : s'.Parses y := by
  obtain ⟨h1, h2, hlen, hterm, hfields⟩ := hy
  have hindex : 4 + (s.receiver.memRead 3).toNat ≤ 31 := Nat.le_of_lt_succ (terminatorIndex_lt hlen)
  have hend := h _ (.inr ⟨rfl, hindex⟩)
  rw [h.memRead 2 (by decide), h.memRead 3 (by decide), hcfg, hsensor, decodeByCmd_congr h.memRead] at hfields
  rw [h.memRead 0 (by decide)] at h1
  rw [h.memRead 1 (by decide)] at h2
  have hlenByte := h.memRead 3 (by decide)
  exact ⟨h1, h2, hlenByte ▸ hlen, hlenByte ▸ hend.symm.trans hterm, hfields⟩

/-- Settles O36: either both buffers hold the same response or neither holds one. -/
theorem parseReadsOnlyItsBytes : Obligations.ParseReadsOnlyItsBytes := by
  unfold Obligations.ParseReadsOnlyItsBytes
  intro s s' hlive hlive' hcfg hsensor h
  have hagree : s.receiver.AgreesOnParse s'.receiver := h
  by_cases hp : ∃ y, s.Parses y
  · obtain ⟨y, hy⟩ := hp
    exact ⟨_, _, exec_parse_of_parses hlive hy, exec_parse_of_parses hlive' (hy.of_agrees hcfg hsensor hagree), rfl,
      rfl, rfl⟩
  · have hnot (y : Sensor) : ¬ s.Parses y := not_exists.1 hp y
    have hnot' (y : Sensor) : ¬ s'.Parses y := fun hy => hnot y (hy.of_agrees hcfg.symm hsensor.symm hagree.symm)
    exact ⟨_, _, exec_parse_of_not_parses hlive hnot, exec_parse_of_not_parses hlive' hnot', hsensor, rfl, rfl⟩

/-! ### Each response, as a row and inside PARSE -/

/-- A response that decodes succeeds as its row, and inside PARSE where its header stands in the buffer. -/
theorem State.Decodes.row_and_parse {s : State} {cmd len : Byte} {y : Sensor} (h : s.Decodes cmd len y)
    (hlive : s.Live) :
    exec (responseOf cmd len) s = s.parseSuccess y ∧
      (s.receiver.buf.read 0 = 0x55 → s.receiver.buf.read 1 = 0xAA → s.receiver.buf.read 2 = cmd →
        s.receiver.buf.read 3 = len → exec .parse s = s.parseSuccess y) := by
  have hrow := exec_responseOf_of_decodes hlive h
  exact ⟨hrow, fun h1 h2 hcmd hlen => (exec_parse_of_header h1 h2 hcmd hlen).trans hrow⟩

/-- Settles O29: the Measure decoder's fields. -/
theorem measureResponseDecoded : Obligations.MeasureResponseDecoded := by
  unfold Obligations.MeasureResponseDecoded
  rintro s len hlive rd hrd hlen hterm hcovers _ rfl
  obtain rfl : rd = s.receiver.buf.read := funext hrd
  exact State.Decodes.row_and_parse ⟨hlen, hterm, decodeByCmd_measure_of_covers hcovers ..⟩ hlive

/-- Settles O30: the Reset decoder writes no field. -/
theorem resetResponseDecoded : Obligations.ResetResponseDecoded := by
  unfold Obligations.ResetResponseDecoded
  rintro s len hlive rd hrd hlen hterm _ rfl
  obtain rfl : rd = s.receiver.buf.read := funext hrd
  exact State.Decodes.row_and_parse ⟨hlen, hterm, decodeByCmd_reset_eq ..⟩ hlive

/-- Settles O31: the Get-factory-defaults decoder's fields. -/
theorem factoryDefaultsResponseDecoded : Obligations.FactoryDefaultsResponseDecoded := by
  unfold Obligations.FactoryDefaultsResponseDecoded
  rintro s len hlive rd hrd hlen hterm hcovers _ rfl
  obtain rfl : rd = s.receiver.buf.read := funext hrd
  exact State.Decodes.row_and_parse ⟨hlen, hterm, decodeByCmd_factoryDefaults_of_covers hcovers ..⟩ hlive

/-- Settles O32: the Get-product-info decoder's fields. -/
theorem productInfoResponseDecoded : Obligations.ProductInfoResponseDecoded := by
  unfold Obligations.ProductInfoResponseDecoded
  rintro s len hlive rd hrd hlen hterm hcovers _ rfl
  obtain rfl : rd = s.receiver.buf.read := funext hrd
  exact State.Decodes.row_and_parse ⟨hlen, hterm, decodeByCmd_productInfo_of_covers hcovers ..⟩ hlive

/-- Settles O33: a response that decodes has a CMD with a decoder. -/
theorem unsupportedResponseFails : Obligations.UnsupportedResponseFails := by
  unfold Obligations.UnsupportedResponseFails
  rintro s cmd len hlive hcmd _ rfl
  refine ⟨?_, fun hread => exec_parse_of_not_parses hlive fun y hy => ?_⟩
  · rw [← responseOf_of_not_mem hcmd]
    exact exec_responseOf_of_not_decodes hlive fun y hy => hcmd (mem_decodedCmds_of_decodeByCmd hy.fields)
  · subst hread
    exact hcmd (mem_decodedCmds_of_decodeByCmd hy.body.fields)

/-- Settles O34: the four rows are those of the CMDs with a decoder, and each failure contradicts one condition of
`State.Decodes`. -/
theorem responseRowFailure : Obligations.ResponseRowFailure := by
  unfold Obligations.ResponseRowFailure
  rintro s len hlive _ rfl
  refine ⟨fun h i hi => ?_, fun hcheck => ⟨fun hlen => ⟨?_, ?_⟩, fun hlen => ?_⟩⟩
  · obtain ⟨cmd, -, rfl⟩ : ∃ cmd ∈ decodedCmds, responseOf cmd len = i := List.mem_map.1 hi
    refine exec_responseOf_of_not_decodes hlive fun y hy => ?_
    rcases h with hlen | hterm
    · exact absurd hy.lenOk (not_le.2 hlen)
    · exact hterm hy.terminator
  · exact exec_responseOf_of_short (cmd := cmdMeasureCode) hlive hcheck hlen
  · exact exec_responseOf_of_short (cmd := cmdProductInfoCode) hlive hcheck hlen
  · exact exec_responseOf_of_short (cmd := cmdFactoryDefaultsCode) hlive hcheck hlen

end Sys2Proof.Machine

/-!
The family of spec/44_session.md: what a step can add to the transmit stream (R91, R205), and the accessors of the
sensor state (R210-R218).
-/

namespace Sys2Proof.Machine

/-! ### The transmit stream -/

/-- The stream `after` is `before` with some first bytes (none, or all of them) of one command frame behind it. -/
def GrowsByCommandFrame (before after : List Byte) : Prop :=
  ∃ cmd ∈ decodedCmds, ∃ n, after = before ++ (commandFrame cmd).take n

theorem GrowsByCommandFrame.of_eq {before after : List Byte} (h : after = before) : GrowsByCommandFrame before after :=
  ⟨cmdMeasureCode, by decide, 0, by simp [h]⟩

/-- Only the sends write the transmit stream (R200). -/
theorem HostEffect.txOut {s t : State} {i : Instr} (h : HostEffect s i t) : GrowsByCommandFrame s.txOut t.txOut := by
  cases h with
  | sends cmd hcmd => exact ⟨cmd, hcmd, 5, rfl⟩
  | sendFails cmd hcmd => exact ⟨cmd, hcmd, _, rfl⟩
  | _ => exact .of_eq rfl

theorem exec_txOut {i : Instr} {s t : State} (h : exec i s = .next t) : GrowsByCommandFrame s.txOut t.txOut := by
  rcases exec_next h with ⟨b, ok, rfl, hr⟩ | ⟨-, he⟩
  · rw [receiveTouchesOnlyReceiver b ok s t hr]
    exact .of_eq rfl
  · exact he.txOut

/-- Settles O39, by the four things a step can do: an instruction sends at most one frame of a CMD with a decoder
(`exec_txOut`), and the fetch and a reset keep the stream (R260). -/
theorem onlyCommandFramesSent : Obligations.OnlyCommandFramesSent := by
  unfold Obligations.OnlyCommandFramesSent
  intro s t h
  show GrowsByCommandFrame s.txOut t.txOut
  rcases step_next h with ⟨-, -, rfl⟩ | ⟨w, env, rest, -, hx⟩ | ⟨b, ok, rest, -, hx⟩ | ⟨rest, -, rfl⟩
  · exact .of_eq rfl
  · exact (exec_txOut hx :)
  · exact (exec_txOut hx :)
  · exact .of_eq rfl

/-! ### The accessors that cannot halt -/

/-- Settles O40: each accessor answers behind the guard of R233, which a running block passes. -/
theorem plainAccessors : Obligations.PlainAccessors := by
  unfold Obligations.PlainAccessors
  exact fun s hlive =>
    ⟨hostOperation_live hlive _, hostOperation_live hlive _, hostOperation_live hlive _, hostOperation_live hlive _⟩

/-- The result of GDIST as a number: the flag is bit 16, above the 16 bits of the distance (R210). -/
theorem toNat_distanceWord (fresh : Bool) (d : BitVec 16) :
    ((BitVec.ofBool fresh ++ d).setWidth 32).toNat = d.toNat + if fresh then 65536 else 0 := by
  have hd : d.toNat < 2 ^ 16 := d.isLt
  have hbit : (BitVec.ofBool fresh).toNat <<< 16 = if fresh then 65536 else 0 := by cases fresh <;> rfl
  rw [BitVec.toNat_setWidth, BitVec.toNat_append, ← Nat.shiftLeft_add_eq_or_of_lt hd, hbit]
  split <;> omega

theorem exec_gdist {s : State} (h : s.Live) :
    exec .gdist s =
      .next { s with
        sensor := s.sensor.takeDistanceFresh.1
        result := some ((BitVec.ofBool s.sensor.distanceFresh ++ s.sensor.distance).setWidth 32) } :=
  hostOperation_live h _

/-- Settles O41: GDIST on a running block (`exec_gdist`), with its result as a number. -/
theorem distanceReadOnce : Obligations.DistanceReadOnce := by
  unfold Obligations.DistanceReadOnce
  exact fun s hlive => ⟨_, exec_gdist hlive, toNat_distanceWord _ _⟩

/-- Settles O42: GRDY on a running block (`exec_grdy`), with the flag as a word. -/
theorem readyReadOnce : Obligations.ReadyReadOnce := by
  unfold Obligations.ReadyReadOnce
  intro s hlive
  rw [exec_grdy hlive, bitWord_eq_ite]
  rfl

/-! ### The accessors that check their operand or their field -/

/-- The offset selected is the entry of the list `offset[0..3]`, and past it there is none (R83). -/
theorem Offsets.get?_eq_getElem? (o : Offsets) (j : Byte) : o.get? j = [o.o0, o.o1, o.o2, o.o3][j.toNat]? := by
  unfold Offsets.get?
  match j.toNat with
  | 0 | 1 | 2 | 3 | _ + 4 => rfl

theorem exec_gofs_of_some {s : State} {j v : Byte} (h : s.Live) (hv : s.sensor.offset.get? j = some v) :
    exec (.gofs j) s = .next { s with result := some (v.setWidth 32) } := by
  refine (hostOperation_live h _).trans ?_
  rw [hv]
  rfl

theorem exec_gofs_of_none {s : State} {j : Byte} (h : s.Live) (hv : s.sensor.offset.get? j = none) :
    exec (.gofs j) s = .next (s.haltEntry .badOperand) := by
  refine (hostOperation_live h _).trans ?_
  rw [hv]
  rfl

/-- Settles O43, by whether the list of offsets has an entry `j`. -/
theorem offsetRead : Obligations.OffsetRead := by
  unfold Obligations.OffsetRead
  intro j s hlive
  refine ⟨fun v hv => exec_gofs_of_some hlive ?_, fun hj => exec_gofs_of_none hlive ?_⟩
  · rw [Offsets.get?_eq_getElem?, hv]
  · rw [Offsets.get?_eq_getElem?]
    exact List.getElem?_eq_none hj

theorem mem_portCodes_iff {p : Byte} : p ∈ portCodes ↔ p.toNat ≤ 2 := by
  simp only [portCodes, List.mem_cons, List.not_mem_nil, or_false]
  bv_omega

theorem mem_calibrationCodes_iff {c : Byte} : c ∈ calibrationCodes ↔ c.toNat ≤ 3 := by
  simp only [calibrationCodes, List.mem_cons, List.not_mem_nil, or_false]
  bv_omega

theorem exec_gport {s : State} (h : s.Live) :
    exec .gport s =
      if s.sensor.port.toNat ≤ 2 then .next { s with result := some (s.sensor.port.setWidth 32) }
      else .next (s.haltEntry .badPort) :=
  (hostOperation_live h _).trans (if_congr mem_portCodes_iff rfl rfl)

theorem exec_gcal {s : State} (h : s.Live) :
    exec .gcal s =
      if s.sensor.calibration.toNat ≤ 3 then .next { s with result := some (s.sensor.calibration.setWidth 32) }
      else .next (s.haltEntry .badCal) :=
  (hostOperation_live h _).trans (if_congr mem_calibrationCodes_iff rfl rfl)

/-- Settles O44, by whether the code is legal. -/
theorem portReadValidated : Obligations.PortReadValidated := by
  unfold Obligations.PortReadValidated
  exact fun s hlive => ⟨fun hlegal => (exec_gport hlive).trans (if_pos hlegal),
    fun hillegal => (exec_gport hlive).trans (if_neg hillegal.not_ge)⟩

/-- Settles O45, by whether the code is legal. -/
theorem calibrationReadValidated : Obligations.CalibrationReadValidated := by
  unfold Obligations.CalibrationReadValidated
  exact fun s hlive => ⟨fun hlegal => (exec_gcal hlive).trans (if_pos hlegal),
    fun hillegal => (exec_gcal hlive).trans (if_neg hillegal.not_ge)⟩

end Sys2Proof.Machine

/-!
The family of spec/60_exceptions.md: which instruction halts with which cause (R231), what halt entry leaves (R232,
R234), and that only the reset event leaves the halted state (R235, R261).
-/

namespace Sys2Proof.Machine

/-! ### The halts of the instructions -/

/-- The sends, and the command rows that are their transmissions (R200-R204). -/
abbrev sendRows : List Instr :=
  [.smeas, .sinfo, .sdef, .srst, .cmdMeasure, .cmdGetProductInfo, .cmdGetFactoryDefaults, .cmdReset]

/-- The timer operations on the id `k` (R115, R117, R119). -/
abbrev IsTimerOp (i : Instr) (k : Byte) : Prop := i = .tread k ∨ ∃ arg, i = .tinit k arg ∨ i = .twrite k arg

/-- The instructions that raise a halt cause, each with the condition on which it does: the table of R231. -/
inductive HaltReason (s : State) : Instr → HaltCause → Prop where
  | sendFails {i : Instr} (hi : i ∈ sendRows) (h : s.env.txOk = false) : HaltReason s i .txFail
  | rearmFails (b : Byte) : HaltReason s (.rx b false) .rxRearmFail
  | armFails (h : s.env.armOk = false) : HaltReason s .rxarm .rxRearmFail
  | noTimer {i : Instr} {k : Byte} (hi : IsTimerOp i k) (hk : s.timers.length ≤ k.toNat) : HaltReason s i .badTimer
  | badPort (h : 2 < s.sensor.port.toNat) : HaltReason s .gport .badPort
  | badCal (h : 3 < s.sensor.calibration.toNat) : HaltReason s .gcal .badCal
  | unassigned (op : Byte) : HaltReason s (.illegal op) .illegalOp
  | noReleaseEvent (h : s.cfg.hasReleaseEvent = false) : HaltReason s .dbrel .illegalOp
  | noOffset (j : Byte) (h : 4 ≤ j.toNat) : HaltReason s (.gofs j) .badOperand

theorem HaltReason.ne_noCause {s : State} {i : Instr} {cause : HaltCause} (h : HaltReason s i cause) :
    cause ≠ .noCause := by
  cases h <;> decide

/-- The instruction `i` halts the block `s` in the state `t`: before the halt entry it wrote at most the receiver, the
transmit stream and the count of free values drawn (R14, R232). -/
def HaltedBy (s : State) (i : Instr) (t : State) : Prop :=
  ∃ cause r out n, HaltReason s i cause ∧ t = { s with receiver := r, txOut := out, draws := n }.haltEntry cause

/-- A halt before any other effect. -/
theorem HaltReason.haltedBy {s : State} {i : Instr} {cause : HaltCause} (h : HaltReason s i cause) :
    HaltedBy s i (s.haltEntry cause) :=
  ⟨cause, s.receiver, s.txOut, s.draws, h, rfl⟩

section Halting

variable {s t : State} {i : Instr}

/-- What leaves a running block running is no halt. -/
theorem State.Live.not_halted (hlive : s.Live) (h : t.halt = s.halt) : t.halt.halted ≠ true := by
  simp [h, hlive]

theorem State.receiveByte_halts {b : Byte} {ok : Bool} (hlive : s.Live) (h : s.receiveByte b ok = .next t)
    (hhalt : t.halt.halted = true) : HaltedBy s (.rx b ok) t := by
  rcases State.receiveByte_next h with ⟨-, rfl⟩ | ⟨-, -, hi, ⟨-, rfl⟩ | ⟨rfl, rfl⟩⟩
  · exact absurd hhalt (hlive.not_halted rfl)
  · exact absurd hhalt (hlive.not_halted rfl)
  · exact ⟨_, _, s.txOut, s.draws, .rearmFails b, rfl⟩

/-- A timer operation halts only where no timer has its id (R83). -/
theorem exec_halts_of_onTimer {k : Byte} (hi : IsTimerOp i k) (hlive : s.Live) (h : exec i s = .next t)
    (hhalt : t.halt.halted = true) : HaltedBy s i t := by
  obtain ⟨f, hf⟩ := exec_timerOp hi
  obtain ⟨-, ht⟩ := hostOperation_next ((hf s).symm.trans h)
  rcases State.onTimer_next ht with ⟨hnone, rfl⟩ | ⟨x, -, rfl⟩
  · exact (HaltReason.noTimer hi (List.getElem?_eq_none_iff.1 hnone)).haltedBy
  · exact absurd hhalt (hlive.not_halted rfl)

/-- A send halts only where the transmit fails (R200). -/
theorem State.sendFrame_halts {frame : List Byte} (hi : i ∈ sendRows) (hlive : s.Live)
    (h : s.sendFrame frame = .next t) (hhalt : t.halt.halted = true) : HaltedBy s i t := by
  rcases State.sendFrame_next h with ⟨-, rfl⟩ | ⟨htx, rfl⟩
  · exact absurd hhalt (hlive.not_halted rfl)
  · exact ⟨_, s.receiver, _, _, .sendFails hi htx, rfl⟩

theorem State.parseBody_halt {len : Byte} {d : Config → Byte → Receiver → Sensor → Option Sensor}
    (h : s.parseBody len d = .next t) : t.halt = s.halt := by
  rcases s.parseBody_cases len d with hp | ⟨x, -, -, -, hp⟩ <;> cases hp.symm.trans h <;> rfl

theorem State.parseFrame_halt (h : s.parseFrame = .next t) : t.halt = s.halt := by
  rcases s.parseFrame_cases with hp | ⟨x, -, hp⟩ <;> cases hp.symm.trans h <;> rfl

/-- An instruction that checks a condition before its effect halts only where the condition fails. -/
theorem halts_of_ite {p : Prop} [Decidable p] {u : State} {cause : HaltCause}
    (h : (if p then .next u else .next (s.haltEntry cause) : Result) = .next t) (hhalt : t.halt.halted = true)
    (hlive : s.Live) (hu : u.halt = s.halt) (hreason : ¬ p → HaltReason s i cause) : HaltedBy s i t := by
  split at h <;> cases h
  case isTrue => exact absurd hhalt (hlive.not_halted hu)
  case isFalse hp => exact (hreason hp).haltedBy

theorem exec_gofs_halts {j : Byte} (hlive : s.Live) (h : exec (.gofs j) s = .next t) (hhalt : t.halt.halted = true) :
    HaltedBy s (.gofs j) t := by
  cases hv : s.sensor.offset.get? j with
  | some v =>
    cases (exec_gofs_of_some hlive hv).symm.trans h
    exact absurd hhalt (hlive.not_halted rfl)
  | none =>
    cases (exec_gofs_of_none hlive hv).symm.trans h
    rw [Offsets.get?_eq_getElem?] at hv
    exact (HaltReason.noOffset j (List.getElem?_eq_none_iff.1 hv)).haltedBy

/-- An instruction that halts a running block does so for a reason of R231, as the last of its effects (R14). -/
theorem exec_halts (hlive : s.Live) (h : exec i s = .next t) (hhalt : t.halt.halted = true) : HaltedBy s i t := by
  cases i with
  | rx b ok => exact State.receiveByte_halts hlive h hhalt
  | tread k => exact exec_halts_of_onTimer (.inl rfl) hlive h hhalt
  | tinit k arg => exact exec_halts_of_onTimer (.inr ⟨arg, .inl rfl⟩) hlive h hhalt
  | twrite k arg => exact exec_halts_of_onTimer (.inr ⟨arg, .inr rfl⟩) hlive h hhalt
  | smeas | sinfo | sdef | srst | cmdMeasure | cmdGetProductInfo | cmdGetFactoryDefaults | cmdReset =>
    exact State.sendFrame_halts (by decide) hlive (hostOperation_next h).2 hhalt
  | rxarm =>
    refine halts_of_ite ((exec_rxarm hlive).symm.trans h) hhalt hlive rfl fun hfail => ?_
    exact .armFails (by simpa using hfail)
  | dbrel =>
    refine halts_of_ite (hostOperation_next h).2 hhalt hlive rfl fun hnone => ?_
    exact .noReleaseEvent (by simpa using hnone)
  | gport =>
    refine halts_of_ite ((exec_gport hlive).symm.trans h) hhalt hlive rfl fun hillegal => ?_
    exact .badPort (Nat.lt_of_not_le hillegal)
  | gcal =>
    refine halts_of_ite ((exec_gcal hlive).symm.trans h) hhalt hlive rfl fun hillegal => ?_
    exact .badCal (Nat.lt_of_not_le hillegal)
  | gofs j => exact exec_gofs_halts hlive h hhalt
  | illegal op =>
    cases (exec_illegal hlive op).symm.trans h
    exact (HaltReason.unassigned op).haltedBy
  | parse => exact absurd hhalt (hlive.not_halted (State.parseFrame_halt (hostOperation_next h).2))
  | rspMeasure | rspReset | rspGetFactoryDefaults | rspGetProductInfo | rspUnsupported =>
    exact absurd hhalt (hlive.not_halted (State.parseBody_halt (hostOperation_next h).2))
  | dbupd | dbpush | dbheld | fpoll | gdist | gerr | gfw | gptype | gxtalk | grdy =>
    obtain ⟨-, h⟩ := hostOperation_next h
    cases h
    exact absurd hhalt (hlive.not_halted rfl)

end Halting

/-- Settles O48: halt entry clears `rxArmed` and the result, and what an instruction writes before it (`HaltedBy`) is
none of the rest. -/
theorem haltEntryEffect : Obligations.HaltEntryEffect := by
  unfold Obligations.HaltEntryEffect
  intro i s t hlive h hhalt
  obtain ⟨cause, r, out, n, hreason, rfl⟩ := exec_halts hlive h hhalt
  exact ⟨rfl, hreason.ne_noCause, rfl, rfl, rfl, rfl, rfl⟩

/-- Settles O49, by the rows of R231's table (`HaltReason`). -/
theorem haltCauseTable : Obligations.HaltCauseTable := by
  unfold Obligations.HaltCauseTable
  refine ⟨by decide, fun i s t hlive h hhalt => ?_⟩
  obtain ⟨cause, r, out, n, hreason, rfl⟩ := exec_halts hlive h hhalt
  cases hreason with
  | sendFails hi htx => exact ⟨htx, hi⟩
  | rearmFails b => exact .inl ⟨b, rfl⟩
  | armFails harm => exact .inr ⟨rfl, harm⟩
  | noTimer hi hk => exact ⟨_, hk, hi⟩
  | badPort hport => exact ⟨rfl, hport⟩
  | badCal hcal => exact ⟨rfl, hcal⟩
  | unassigned op => exact .inl ⟨op, rfl⟩
  | noReleaseEvent hrel => exact .inr ⟨rfl, hrel⟩
  | noOffset j hj => exact ⟨j, rfl, hj⟩

/-! ### Leaving the halted state -/

/-- Settles O51, by the four things a step can do: a halted block does not hold its state, has no host operation
(`exec_halted`), and drops a received byte. -/
theorem onlyResetLeavesHalt : Obligations.OnlyResetLeavesHalt := by
  unfold Obligations.OnlyResetLeavesHalt
  intro s t hhalted hstep
  rcases step_next hstep with ⟨-, hlive, -⟩ | ⟨w, env, rest, -, hx⟩ | ⟨b, ok, rest, hp, hx⟩ | ⟨rest, hp, -⟩
  · exact absurd hhalted (by simp [hlive])
  · have hstuck :=
      exec_halted (s := { s with pending := rest, env := env, result := none }) hhalted (decodeHost_ne_rx w)
    cases hstuck.symm.trans hx
  · have hdrop := State.receiveByte_dropped (s := { s with pending := rest, result := none }) (.inl hhalted) b ok
    cases hdrop.symm.trans hx
    exact .inr (by rw [hp]; rfl)
  · exact .inl ⟨rest, hp⟩

end Sys2Proof.Machine

/-! ## The reset event (spec/70_reset_and_hazards.md R260) -/

namespace Sys2Proof.Machine

@[simp] theorem State.resetWith_debounce (c : Config) : (State.resetWith c).debounce =
    { timer := { start := 0, duration := c.debounceMs, running := false }
      dbState := .released, pushed := false, pressing := false, released := false } := rfl

@[simp] theorem State.resetWith_sensor (c : Config) : (State.resetWith c).sensor =
    { distance := 0, errorCode := 0, port := c.enumReset, firmware := 0, calibration := c.enumReset, productType := 0
      offset := { o0 := 0, o1 := 0, o2 := 0, o3 := 0 }, crosstalk := 0, responseReady := false
      distanceFresh := false } := rfl

/-- Settles O57: the step is the reset event (`step_of_pending_reset`), which takes each component from `State.resetWith`
and the stream from the state before. -/
theorem resetEventValues : Obligations.ResetEventValues := by
  unfold Obligations.ResetEventValues
  intro s rest
  refine ⟨_, step_of_pending_reset rfl, ?_⟩
  simp [Memory.read_nil]

end Sys2Proof.Machine
